-- ==== Sys2Proof/Word.lean ====
section
/-! DEFINITION. The plain words of the model: bytes, times in microseconds, and the operand types a command may carry. -/

namespace Sys2Proof

/-- One byte on PD0 to PD7: bit k of the byte lies on PDk (R169). -/
abbrev Byte := BitVec 8

/-- A time or a duration in microseconds (00 section 5, Units). -/
abbrev Micros := Nat

/-- What the other stations drive on PD0 to PD7 in a read strobe (R165, R168). -/
structure Peers where
  /-- The lowest arbitration value that the other stations of the sense read offer; 0xFF where none offers one. -/
  lowest : Byte := 0xFF
  /-- The AND of the status bytes that stations outside the sense read hold on the lines (R168); 0xFF where there is none. -/
  held : Byte := 0xFF
deriving DecidableEq, Repr

/-- The direction of a strobe, the level of PDIR at the fall of PSTR (R154); in a read strobe with what the other stations
drive, which bears on the arbitration read alone. -/
inductive StrobeDir where
  | write
  | read (peers : Peers)
deriving DecidableEq, Repr

/-- The raw levels of the strap pins, as they stand at the release of RST (R122). -/
structure StrapPins where
  /-- STN2 to STN0 -/
  stn : BitVec 3
  /-- FCOL7 to FCOL0 -/
  fcol : BitVec 8
  /-- WID4 to WID0 -/
  wid : BitVec 5
  /-- RATE1 to RATE0 -/
  rate : BitVec 2
  /-- FIRE1 to FIRE0 -/
  fire : BitVec 2
deriving DecidableEq, Repr

/-- A control order (R158, R170). -/
inductive ControlOrder where
  | hold
  | discard
  | resume
  | sense
deriving DecidableEq, Repr

/-- A record order as the parser reads it from an order byte (R170). -/
inductive RecordOrder where
  /-- PRINT SPACE k, k = 0 to 3 -/
  | printSpace (k : Nat)
  /-- PRINT SKIP c, c = 1 to 12 -/
  | printSkip (c : Nat)
  /-- MOVE SPACE k, k = 1 to 3 -/
  | moveSpace (k : Nat)
  /-- MOVE SKIP c, c = 1 to 12 -/
  | moveSkip (c : Nat)
  | loadForm
  | loadCodes
  | loadGlyph
  | checkBlank
  | checkBlock
deriving DecidableEq, Repr

end Sys2Proof
end

