-- ==== Sys2Proof/Config.lean ====
section
/-! DEFINITION. What the part fixes: its times, and the free values the spec leaves open. -/

namespace Sys2Proof.Config

/-- The print period of a RATE strap value (R48). -/
def printPeriod (rate : BitVec 2) : Micros :=
  match rate.toNat with
  | 0 => 2500
  | 1 => 3000
  | 2 => 4000
  | _ => 5000

/-- The fire pulse width of a FIRE strap value (R48). -/
def fireWidth (fire : BitVec 2) : Micros :=
  match fire.toNat with
  | 0 => 300
  | 1 => 400
  | 2 => 500
  | _ => 600

/-- The slew period (R48). -/
def slewPeriod : Micros := 500
/-- STEP stays released this long after a step (R47). -/
def stepPulse : Micros := 50
/-- The fire pulse begins this long after the step, or after a fault's end (R51, R53). -/
def fireDelay : Micros := 100
/-- FRAME is held low this long after the frame event at which a motion started (R54). -/
def frameHold : Micros := 50
/-- The frame timer expires at 100 ms (R57). -/
def frameTimeout : Micros := 100000
/-- Render time for each layer (R68). -/
def renderPerLayer : Micros := 40
/-- The start interval (R125). -/
def startInterval : Micros := 10000
/-- The forming interval (R126). -/
def formingInterval : Micros := 50000
/-- A PINIT low level of at least this length is a qualifying pulse (R159). -/
def pinitQualify : Micros := 10

/-- FREE VALUE (log 2): the dots of row `r` of the fixed glyph `g`, 1 to 94, which R84 does not give. -/
opaque fixedGlyph (g : BitVec 7) (r : Nat) : Byte

/-- FREE VALUE (log 2): the dots of row 8 of the underscore, less 1. R84 sets its dots there and does not say which: any byte
with a dot on is one more than such a number. -/
opaque underscoreDots : Fin 255

end Sys2Proof.Config
end

