-- ==== Sys2Proof/Syntax.lean ====
section
/-! DEFINITION. The commands of the block: one constructor for each row of spec/opcode_table.json. -/

namespace Sys2Proof

/-- A command that reaches a station: a strobe, an accepted change of an input, an edge of a bar line, the expiry of a
time, or a step the station takes by itself (spec/95, 00 section 5 "Events"). -/
inductive Instr where
  /-- PRINT_SPACE (R10): the order byte 0x10 + k strobed with PATN high. -/
  | printSpace (k : Nat)
  /-- PRINT_SKIP (R11): the order byte 0x20 + c. -/
  | printSkip (c : Nat)
  /-- MOVE_SPACE (R12): the order byte 0x30 + k. -/
  | moveSpace (k : Nat)
  /-- MOVE_SKIP (R12): the order byte 0x40 + c. -/
  | moveSkip (c : Nat)
  /-- LOAD_FORM (R108): the order byte 0x50. -/
  | loadForm
  /-- LOAD_CODES (R109): the order byte 0x51. -/
  | loadCodes
  /-- LOAD_GLYPH (R110): the order byte 0x52. -/
  | loadGlyph
  /-- CHECK_BLANK (R107): the order byte 0x58. -/
  | checkBlank
  /-- CHECK_BLOCK (R107): the order byte 0x59. -/
  | checkBlock
  /-- UNKNOWN_ORDER (R117): an order byte of an unknown value. -/
  | unknownOrder (v : Byte)
  /-- DATA_BYTE (R102): a byte strobed with PATN low. -/
  | dataByte (v : Byte)
  /-- HOLD (R132): the control order 0x01. -/
  | hold
  /-- DISCARD (R133): the control order 0x02. -/
  | discard
  /-- RESUME (R134): the control order 0x03. -/
  | resume
  /-- SENSE (R164): the control order 0x04. -/
  | sense
  /-- ARBITRATION_READ (R165): the first read strobe of a sense read, at its rise; `peers` is what the other stations drove
  in it. -/
  | arbitrationRead (peers : Peers)
  /-- SENSE_RECORD_READ (R166): a later read strobe of a sense read. -/
  | senseRecordRead
  /-- PINIT_FALL (R159): PINIT goes low. -/
  | pinitFall
  /-- PINIT (R159): PINIT rises after a low level that the PINIT filter timed as `lowFor`. -/
  | pinit (lowFor : Micros)
  /-- FULL_RESET (R125): RST goes low, or power comes on. -/
  | fullReset
  /-- RESET_RELEASE (R122): RST is released with these levels on the strap pins. -/
  | resetRelease (pins : StrapPins)
  /-- START_INTERVAL_EXPIRY (R125). -/
  | startIntervalExpiry
  /-- FORMING_INTERVAL_EXPIRY (R126). -/
  | formingIntervalExpiry
  /-- JOIN_RISE (R126): the accepted level of JOIN changes to high. -/
  | joinRise
  /-- JOIN_FALL (R137): the accepted level of JOIN changes to low. -/
  | joinFall
  /-- COVER_OPEN (R145). -/
  | coverOpen
  /-- COVER_CLOSED (R146). -/
  | coverClosed
  /-- PAPER_ABSENT (R147). -/
  | paperAbsent
  /-- PAPER_PRESENT (R148). -/
  | paperPresent
  /-- KSTART (R135): an accepted press. -/
  | kstart
  /-- KSTOP (R136): an accepted press. -/
  | kstop
  /-- KFEED (R151): an accepted press. -/
  | kfeed
  /-- KTOF (R152): an accepted press. -/
  | ktof
  /-- FAULT_FALL (R143): a falling edge on FAULT. -/
  | faultFall
  /-- FAULT_RISE (R143): a rising edge on FAULT; `frameHigh` is the level of FRAME at that moment (R56). -/
  | faultRise (frameHigh : Bool)
  /-- STEP (R49): a rising edge of STEP. -/
  | step
  /-- FRAME_EVENT (R56): a rising edge of FRAME. -/
  | frameEvent
  /-- STEP_PULSE_END (R47): 50 us after a step. -/
  | stepPulseEnd
  /-- STEP_RELEASE (R48): the step interval has elapsed. -/
  | stepRelease
  /-- FIRE_PULSE_START (R51): 100 us after a step or a fault's end. -/
  | firePulseStart
  /-- FIRE_PULSE_END (R52): the strapped width has elapsed. -/
  | firePulseEnd
  /-- FRAME_HOLD_DELAY (R54): 50 us after a frame event at which a motion started. -/
  | frameHoldDelay
  /-- FRAME_TIMER_EXPIRY (R57): the frame timer reaches 100 ms. -/
  | frameTimerExpiry
  /-- MOTION_START (R44). -/
  | motionStart
  /-- RENDER_START (R69). -/
  | renderStart
  /-- RENDER_COMPLETION (R72). -/
  | renderCompletion
  /-- PLACE_GRANT (R8). -/
  | placeGrant
  /-- DRAIN_END (R112). -/
  | drainEnd
  /-- PSTR_FALL (R157, R160): PSTR falls with PDIR at this level. -/
  | pstrFall (dir : StrobeDir)
deriving DecidableEq, Repr

end Sys2Proof
end

