-- ==== Sys2Proof/WellFormed.lean ====
section
/-! DEFINITION. Which commands are well formed: the operand ranges of R170 and R165. -/

namespace Sys2Proof

/-- The unknown order values as R170 lists them. -/
def unknownOrderValue (v : Byte) : Bool :=
  let n := v.toNat
  n == 0x00 || (0x05 ≤ n && n ≤ 0x0F) || (0x14 ≤ n && n ≤ 0x20) || (0x2D ≤ n && n ≤ 0x30) ||
    (0x34 ≤ n && n ≤ 0x40) || (0x4D ≤ n && n ≤ 0x4F) || (0x53 ≤ n && n ≤ 0x57) || 0x5A ≤ n

/-- The peers of a sense read offer a value of R162, or nothing. -/
def Peers.wf (p : Peers) : Bool := p.lowest.toNat ≤ 31 || p.lowest == 0xFF

/-- A command is well formed when its carriage number is in the range of R170, an unknown order's value is one that
R170 lists, and the peers of a read strobe offer a value of R162 or nothing. -/
def Instr.wf : Instr → Bool
  | .printSpace k => k ≤ 3
  | .printSkip c => 1 ≤ c && c ≤ 12
  | .moveSpace k => 1 ≤ k && k ≤ 3
  | .moveSkip c => 1 ≤ c && c ≤ 12
  | .unknownOrder v => unknownOrderValue v
  | .arbitrationRead p => p.wf
  | .pstrFall (.read p) => p.wf
  | .loadForm | .loadCodes | .loadGlyph | .checkBlank | .checkBlock | .dataByte _ => true
  | .hold | .discard | .resume | .sense | .senseRecordRead | .pstrFall .write => true
  | .pinitFall | .pinit _ | .fullReset | .resetRelease _ => true
  | .startIntervalExpiry | .formingIntervalExpiry | .joinRise | .joinFall => true
  | .coverOpen | .coverClosed | .paperAbsent | .paperPresent => true
  | .kstart | .kstop | .kfeed | .ktof | .faultFall | .faultRise _ => true
  | .step | .frameEvent | .stepPulseEnd | .stepRelease | .firePulseStart | .firePulseEnd => true
  | .frameHoldDelay | .frameTimerExpiry | .motionStart | .renderStart | .renderCompletion => true
  | .placeGrant | .drainEnd => true

end Sys2Proof
end

