-- ==== Sys2Proof/Decode.lean ====
section
/-! DEFINITION. The order bytes of R170, read and written. The table gives no row bits, so no table word spells a
command. -/

namespace Sys2Proof

/-- The record order an order byte's value stands for (R170); `none` for every other value. -/
def decodeRecordOrder (v : Byte) : Option RecordOrder :=
  let n := v.toNat
  if 0x10 ≤ n ∧ n ≤ 0x13 then some (.printSpace (n - 0x10))
  else if 0x21 ≤ n ∧ n ≤ 0x2C then some (.printSkip (n - 0x20))
  else if 0x31 ≤ n ∧ n ≤ 0x33 then some (.moveSpace (n - 0x30))
  else if 0x41 ≤ n ∧ n ≤ 0x4C then some (.moveSkip (n - 0x40))
  else if n = 0x50 then some .loadForm
  else if n = 0x51 then some .loadCodes
  else if n = 0x52 then some .loadGlyph
  else if n = 0x58 then some .checkBlank
  else if n = 0x59 then some .checkBlock
  else none

/-- The order byte of a record order (R170). -/
def encodeRecordOrder : RecordOrder → Byte
  | .printSpace k => BitVec.ofNat 8 (0x10 + k)
  | .printSkip c => BitVec.ofNat 8 (0x20 + c)
  | .moveSpace k => BitVec.ofNat 8 (0x30 + k)
  | .moveSkip c => BitVec.ofNat 8 (0x40 + c)
  | .loadForm => 0x50
  | .loadCodes => 0x51
  | .loadGlyph => 0x52
  | .checkBlank => 0x58
  | .checkBlock => 0x59

/-- The control order an order byte's value stands for (R158, R170); `none` for every other value. -/
def decodeControlOrder (v : Byte) : Option ControlOrder :=
  let n := v.toNat
  if n = 0x01 then some .hold
  else if n = 0x02 then some .discard
  else if n = 0x03 then some .resume
  else if n = 0x04 then some .sense
  else none

/-- The order byte of a control order (R158, R170). -/
def encodeControlOrder : ControlOrder → Byte
  | .hold => 0x01
  | .discard => 0x02
  | .resume => 0x03
  | .sense => 0x04

/-- The command a word of the opcode table spells. No row of spec/opcode_table.json gives bits, so none does (log 24). -/
def decodeTableWord (_nbits _w : Nat) : Option Instr := none

end Sys2Proof
end

