-- ==== Sys2Proof/Machine/State.lean ====
section
/-! DEFINITION. The state of one station, as plain data, and the state after reset. -/

namespace Sys2Proof.Machine

/-- The five modes (R124). -/
inductive Mode where
  | starting
  | forming
  | stopped
  | online
  | held
deriving DecidableEq, Repr

/-- The kinds of the fault set (R141). -/
inductive FaultKind where
  | frameSkew
  | inputOverrun
  | barBroken
  | coverOpen
  | paperOut
  | dataCheck
deriving DecidableEq, Repr

/-- The kinds of the warning set (R161). -/
inductive Warning where
  | layerOverflow
  | dataCheckBlanked
  | channelAbsent
  | shortRecord
  | longRecord
  | loadRejected
  | orderError
  | stationStarted
deriving DecidableEq, Repr

/-- The four stops (R131). -/
inductive Stop where
  | hold
  | discard
  | kstop
  | paper
deriving DecidableEq, Repr

/-- The pending-stop set: a subset of the four stops (R131). -/
structure StopSet where
  hold : Bool := false
  discard : Bool := false
  kstop : Bool := false
  paper : Bool := false
deriving DecidableEq, Repr

/-- A cell of a layer, and an entry of the code table (R2, R82). -/
inductive Cell where
  | glyph (g : BitVec 7)
  | blank
  | unprintable
deriving DecidableEq, Repr

/-- One print record's contribution to a line: W cells (R2). -/
abbrev Layer := List Cell

/-- A carriage action (R1). -/
inductive Action where
  | space (k : Nat)
  | skip (c : Nat)
deriving DecidableEq, Repr

/-- The composite states OPEN, CLOSED, RENDERING, READY, PRINTING (R1). -/
inductive CompState where
  | opened
  | closed
  | rendering
  | ready
  | printing
deriving DecidableEq, Repr

/-- The image buffers A and B (R67). -/
inductive Buf where
  | a
  | b
deriving DecidableEq, Repr

/-- The flags of a composite (R3). -/
structure CompFlags where
  layerOverflow : Bool := false
  blocked : Bool := false
  short : Bool := false
deriving DecidableEq, Repr

/-- A composite (R1). -/
structure Composite where
  seq : BitVec 7
  state : CompState := .opened
  layers : List Layer := []
  action : Option Action := none
  buffer : Option Buf := none
  flags : CompFlags := {}
deriving DecidableEq, Repr

/-- A dot row: the dots from the left, `true` for on; a buffer has room for 256 of them (R67). -/
abbrev DotRow := List Bool

/-- An image buffer: the composite that holds it, by its sequence, and nine dot rows (R67). -/
structure ImageBuffer where
  holder : Option (BitVec 7) := none
  image : List DotRow := List.replicate 9 (List.replicate 256 false)
deriving DecidableEq, Repr

/-- The render record (R68), with the moment of its start. -/
structure RenderRecord where
  seq : BitVec 7
  buffer : Buf
  duration : Micros
  start : Micros
deriving DecidableEq, Repr

/-- The pitch of a form: 12 or 9 dot rows a line (R24). -/
inductive Pitch where
  | twelve
  | nine
deriving DecidableEq, Repr

/-- A subset of channels 1 to 12: bit c - 1 for channel c (R24, R27). -/
abbrev ChannelSet := BitVec 12

/-- The form image (R24): `channels` lists the set of each line from line 0 on. -/
structure FormImage where
  pitch : Pitch
  length : Nat
  channels : List ChannelSet
deriving DecidableEq, Repr

/-- The default form image (R26). -/
def FormImage.default : FormImage :=
  { pitch := .twelve, length := 66, channels := 1#12 :: List.replicate 65 0#12 }

/-- The motion plan (R31). -/
structure Plan where
  lines : Nat
  distance : Nat
  landing : Nat
  increase : Nat
  overflow : Bool
deriving DecidableEq, Repr

/-- The row of the present step (R43). DUE keeps the moment from which the 100 us to its pulse run (R51, R53), FIRING
the moment its pulse began. -/
inductive Row where
  | none
  | due (since : Micros)
  | firing (since : Micros)
deriving DecidableEq, Repr

/-- The frame timer (R43, R57): stopped; running since a moment; holding still at a count while FAULT is low; expired. -/
inductive FrameTimer where
  | stopped
  | running (since : Micros)
  | still (elapsed : Micros)
  | expired
deriving DecidableEq, Repr

/-- The motion record (R43). `feed` says that it has no composite; else its composite is the oldest in the queue. -/
structure Motion where
  feed : Bool
  distance : Nat
  steps : Nat := 0
  firing : Bool
  row : Row := .none
  timer : FrameTimer := .stopped
deriving DecidableEq, Repr

/-- The step record (R43): the time of the last step, and whether a fire pulse began after it. -/
structure StepRecord where
  time : Micros
  pulse : Bool
deriving DecidableEq, Repr

/-- How the station drives STEP (R47): held low; released for the next step; still released after a step was taken. -/
inductive StepDrive where
  | held
  | released
  | pulse
deriving DecidableEq, Repr

/-- A byte of the input buffer with its order mark (R155). -/
structure PortByte where
  value : Byte
  order : Bool
deriving DecidableEq, Repr

/-- The strobe in progress on PSTR (R154, R157, R160). -/
inductive Strobe where
  | none
  | write
  | read (answered : Bool)
deriving DecidableEq, Repr

/-- The eight bytes of a sense snapshot (R164). -/
structure Snapshot where
  arbitration : Byte
  condition : Byte
  status : Byte
  line : Byte
  countLow : Byte
  countHigh : Byte
  warned : Byte
  oldest : Byte
deriving DecidableEq, Repr

/-- A sense read in progress (R164 to R167): `winner` has its meaning from index 1 on. -/
structure SenseRead where
  snapshot : Snapshot
  kinds : List Warning
  index : Nat := 0
  winner : Bool := false
deriving DecidableEq, Repr

/-- The parser's states (R99). -/
inductive ParserState where
  | idle
  | awaitPlace
  | awaitDrain
  | body
deriving DecidableEq, Repr

/-- The data-check mode (R87). -/
inductive CheckMode where
  | blank
  | block
deriving DecidableEq, Repr

/-- The data-check mark of the layer under construction (R88). -/
inductive Mark where
  | none
  | blanked
  | blocking
deriving DecidableEq, Repr

/-- The layer under construction: W cells, each `none` until its byte arrives (R98, R103). -/
structure LayerBuild where
  cells : List (Option Cell)
  mark : Mark := .none
deriving DecidableEq, Repr

/-- A staged pitch code (R27): not taken yet, invalid, or a pitch. -/
inductive StagedPitch where
  | absent
  | invalid
  | valid (p : Pitch)
deriving DecidableEq, Repr

/-- The form staging area (R27). `half` is the first channel byte of a line whose second has not been taken. -/
structure FormStage where
  pitch : StagedPitch := .absent
  length : Option Nat := none
  half : Option Byte := none
  channels : List ChannelSet := []
deriving DecidableEq, Repr

/-- The code staging area (R92): entries for codes `first`, `first + 1` and so on. -/
structure CodeStage where
  first : Option Nat := none
  count : Option Nat := none
  entries : List Cell := []
deriving DecidableEq, Repr

/-- The glyph staging area (R95). -/
structure GlyphStage where
  index : Option Nat := none
  rows : List Byte := []
deriving DecidableEq, Repr

/-- The parser record (R98). -/
structure Parser where
  state : ParserState := .idle
  order : Option RecordOrder := none
  remaining : Option Nat := none
  column : Nat := 1
  layer : Option LayerBuild := none
  longNote : Bool := false
  formStage : FormStage := {}
  codeStage : CodeStage := {}
  glyphStage : GlyphStage := {}
  checkMode : CheckMode := .blank
deriving DecidableEq, Repr

/-- The straps as sampled and clamped (R122, R123). -/
structure Straps where
  station : BitVec 3
  fcol : Nat
  width : Nat
  rate : BitVec 2
  fire : BitVec 2
deriving DecidableEq, Repr

/-- The accepted levels of the input filters (R140); a key's level is `true` when pressed. -/
structure Inputs where
  coverClosed : Bool := true
  paperPresent : Bool := true
  kstart : Bool := false
  kstop : Bool := false
  kfeed : Bool := false
  ktof : Bool := false
  joinHigh : Bool := false
deriving DecidableEq, Repr

/-- A glyph: nine rows, top first, bit 7 the leftmost dot (R84). -/
abbrev Glyph := List Byte

/-- The default code table (R83). -/
def defaultCodeTable : List Cell :=
  (List.range 256).map fun code =>
    if 0x20 ≤ code ∧ code ≤ 0x7E then .glyph (BitVec.ofNat 7 (code - 0x20)) else .unprintable

/-- The state of a station. Each field's docstring names the rule of spec/ that gives it; INVENTORY.md lists all with
their reset values. -/
structure State where
  /-- The model's clock in microseconds (log 4). -/
  clock : Micros
  /-- The model's note that the present moment is the frame event that concluded a motion (R54, log 5). -/
  frameMoment : Bool
  /-- RST is low: full reset is in force (R125). -/
  rstLow : Bool
  /-- The straps (R122). -/
  straps : Straps
  /-- The mode (R124). -/
  mode : Mode
  /-- The station's own fault set, in order of recording (R141). -/
  faults : List FaultKind
  /-- FAULT is low, as this station has taken it (R142, R143). -/
  faultLow : Bool
  /-- The pending-stop set (R131). -/
  stops : StopSet
  /-- The start interval, with its start (R125). -/
  startInterval : Option Micros
  /-- The forming interval, with its start (R126). -/
  formingInterval : Option Micros
  /-- The accepted levels of the filtered inputs (R140). -/
  inputs : Inputs
  /-- The input buffer, oldest byte first (R155). -/
  inputBuffer : List PortByte
  /-- The strobe in progress (R157, R160). -/
  strobe : Strobe
  /-- What the station drives on PD0 to PD7; a 1 is a released line (R169). -/
  pd : Byte
  /-- PINIT is low, and the PINIT filter times it from this moment (R159). -/
  pinitLowSince : Option Micros
  /-- The warning set, in order of raising (R161). -/
  warnings : List Warning
  /-- The sense read in progress (R164). -/
  senseRead : Option SenseRead
  /-- The parser record (R98). -/
  parser : Parser
  /-- The code table (R82). -/
  codeTable : List Cell
  /-- The loadable glyphs 96 to 127 (R84). -/
  loadable : List Glyph
  /-- The line queue, oldest composite first (R4). -/
  queue : List Composite
  /-- The sequence counter (R5). -/
  counter : BitVec 7
  /-- Image buffer A (R67). -/
  bufA : ImageBuffer
  /-- Image buffer B (R67). -/
  bufB : ImageBuffer
  /-- The render record (R68). -/
  render : Option RenderRecord
  /-- The installed form image (R24). -/
  form : FormImage
  /-- The line position n (R30). -/
  line : Nat
  /-- The form count (R30). -/
  formCount : BitVec 16
  /-- The overflow latch (R30). -/
  overflow : Bool
  /-- The motion plan the form unit holds (R31). -/
  plan : Option Plan
  /-- The motion record (R43). -/
  motion : Option Motion
  /-- The step record (R43). -/
  stepRecord : Option StepRecord
  /-- How the station drives STEP (R47). -/
  stepDrive : StepDrive
  /-- The delay before FRAME is held low, from the frame event at this moment (R54). -/
  frameDelay : Option Micros
  /-- The dots last shifted into the external driver latches, dot 0 first (R51). -/
  headLatch : DotRow
  /-- The commands that wait, first in first out. -/
  pending : List Instr
deriving DecidableEq, Repr

/-- The reasons a step can stop with a fault. There is none: the part records its faults in its fault set and goes on
(R141, R144), so this type has no constructor. -/
inductive Fault where
deriving DecidableEq, Repr

/-- The reasons a command can be refused. -/
inductive Refusal where
  /-- Raised by exec's arm for a command that has no meaning yet; no arm raises it. Safe: the step stops. -/
  | notModelled (mnemonic : String)
deriving DecidableEq, Repr

/-- The straps before the first release of RST samples them. DESIGN CHOICE (log 1): every pin low, clamped by R123. -/
def Straps.unsampled : Straps := { station := 0, fcol := 1, width := 8, rate := 0, fire := 0 }

/-- The station in full reset: RST low, every block as R23, R26, R30, R66, R81, R83, R84, R121, R125, R141, R155 and R161
state. Nothing waits in the queue. -/
def State.reset : State where
  clock := 0
  frameMoment := false
  rstLow := true
  straps := .unsampled
  mode := .starting
  faults := []
  faultLow := false
  stops := {}
  startInterval := none
  formingInterval := none
  inputs := {}
  inputBuffer := []
  strobe := .none
  pd := 0xFF
  pinitLowSince := none
  warnings := [.stationStarted]
  senseRead := none
  parser := {}
  codeTable := defaultCodeTable
  loadable := List.replicate 32 (List.replicate 9 0)
  queue := []
  counter := 0
  bufA := {}
  bufB := {}
  render := none
  form := .default
  line := 0
  formCount := 0
  overflow := false
  plan := none
  motion := none
  stepRecord := none
  stepDrive := .held
  frameDelay := none
  headLatch := []
  pending := []

end Sys2Proof.Machine
end

