-- ==== Sys2Proof/Machine/Operands.lean ====
section
/-! DEFINITION. What the operands and the body bytes of the commands stand for: straps, carriage actions, staged values. -/

namespace Sys2Proof.Machine

/-- The first column, clamped to 1 to 192 (R123). -/
def clampColumn (raw : BitVec 8) : Nat :=
  if raw.toNat = 0 then 1 else if raw.toNat ≤ 192 then raw.toNat else 192

/-- The width of a width code: 8 + v up to v = 24, and 32 above (R123). -/
def clampWidth (raw : BitVec 5) : Nat :=
  if raw.toNat ≤ 24 then 8 + raw.toNat else 32

/-- The straps as sampled at the release of RST (R122, R123). -/
def Straps.sample (p : StrapPins) : Straps :=
  { station := p.stn, fcol := clampColumn p.fcol, width := clampWidth p.wid, rate := p.rate, fire := p.fire }

/-- The effective width W (R123). -/
def Straps.effective (t : Straps) : Nat := min t.width (193 - t.fcol)

/-- The print period of the straps (R48). -/
def Straps.printPeriod (t : Straps) : Micros := Config.printPeriod t.rate

/-- The fire pulse width of the straps (R48). -/
def Straps.fireWidth (t : Straps) : Micros := Config.fireWidth t.fire

/-- The orders that carry a PRINT body (R102). -/
def isPrint : RecordOrder → Bool
  | .printSpace _ | .printSkip _ => true
  | _ => false

/-- The line orders, which act on the OPEN composite or ask for a place (R7). -/
def isLineOrder : RecordOrder → Bool
  | .printSpace _ | .printSkip _ | .moveSpace _ | .moveSkip _ => true
  | _ => false

/-- The carriage action a line order gives its composite; PRINT SPACE 0 gives none (R10, R11, R12). -/
def lineAction : RecordOrder → Option Action
  | .printSpace k => if k = 0 then none else some (.space k)
  | .printSkip c => some (.skip c)
  | .moveSpace k => some (.space k)
  | .moveSkip c => some (.skip c)
  | _ => none

/-- The pitch code of a LOAD FORM: 6 for pitch 12, 8 for pitch 9, any other value invalid (R27). -/
def stagePitch (v : Byte) : StagedPitch :=
  if v.toNat = 6 then .valid .twelve else if v.toNat = 8 then .valid .nine else .invalid

/-- The channel set of a line's two channel bytes: channels 1 to 8 in the first, 9 to 12 in bits 0 to 3 of the second
(R27). -/
def channelSet (first second : Byte) : ChannelSet := second.extractLsb' 0 4 ++ first

/-- The entry value of a LOAD CODES entry byte (R92). -/
def stageEntry (v : Byte) : Cell :=
  if v.toNat ≤ 0x7F then .glyph (v.setWidth 7) else if v.toNat = 0xFE then .blank else .unprintable

/-- The entry count of a LOAD CODES count byte: 0 stands for 256 (R92). -/
def entryCount (v : Byte) : Nat := if v.toNat = 0 then 256 else v.toNat

end Sys2Proof.Machine
end

