-- ==== Sys2Proof/Machine/Flags.lean ====
section
/-! DEFINITION. What is computed from the state: the faulted condition, the lines the station drives, the status byte, the
primary condition, the sense snapshot and the arbitration. -/

namespace Sys2Proof.Machine

/-- The station is faulted: its own fault set is non-empty or FAULT is low (R143). -/
def State.faulted (s : State) : Bool := !s.faults.isEmpty || s.faultLow

/-- A bystander: faulted while its own fault set is empty (R143). -/
def State.bystander (s : State) : Bool := s.faults.isEmpty && s.faultLow

/-- The pending-stop set is non-empty (R131). -/
def StopSet.any (t : StopSet) : Bool := t.hold || t.discard || t.kstop || t.paper

/-- The motion is at its end: s = D (R43). -/
def Motion.atEnd (m : Motion) : Bool := m.steps == m.distance

/-- The station holds a motion record and is not at its end (R43). -/
def State.stepping (s : State) : Bool :=
  match s.motion with
  | some m => !m.atEnd
  | none => false

/-- The queue holds an OPEN composite (R4). -/
def State.hasOpen (s : State) : Bool := s.queue.any fun c => c.state == .opened

/-- The drain condition: no composite but an OPEN one, and no motion (R111). -/
def State.drained (s : State) : Bool :=
  (match s.queue with
    | [] => true
    | [c] => c.state == .opened
    | _ => false) && s.motion.isNone

/-- The modes in which record strobes are taken and the parser and render unit work: STOPPED, ONLINE, HELD (R98, R128 to
R130, R154). -/
def Mode.working : Mode → Bool
  | .stopped | .online | .held => true
  | .starting | .forming => false

/-- The station takes write strobes and answers read strobes: not in full reset or STARTING, PINIT not low (R154). -/
def State.answers (s : State) : Bool := !s.rstLow && s.mode != .starting && s.pinitLowSince.isNone

/-- The station holds JOIN low: in full reset and while STARTING (R137). -/
def State.holdsJoin (s : State) : Bool := s.rstLow || s.mode == .starting

/-- The station holds STEP low (R47). -/
def State.holdsStep (s : State) : Bool := s.stepDrive == .held

/-- The station holds FRAME low: in STARTING and FORMING, and from a motion's start (50 us later when it started at a
frame event) until its end with the row NONE (R54). -/
def State.holdsFrame (s : State) : Bool :=
  s.rstLow || !s.mode.working ||
    (match s.motion with
      | some m => !(m.atEnd && m.row == .none) && s.frameDelay.isNone
      | none => false)

/-- The station holds FAULT low: its own fault set is non-empty (R142). -/
def State.holdsFault (s : State) : Bool := !s.faults.isEmpty

/-- The station holds PRDY low (R157). -/
def State.holdsPrdy (s : State) : Bool :=
  s.inputBuffer.length == 2 || (s.strobe == .write && !s.inputBuffer.isEmpty) ||
    (s.mode == .starting || s.mode == .forming || s.mode == .stopped) || s.faulted ||
    s.pinitLowSince.isSome || s.rstLow

/-- HFIRE is active: the row is FIRING (R51). -/
def State.fireOn (s : State) : Bool :=
  match s.motion with
  | some m => (match m.row with | .firing _ => true | _ => false)
  | none => false

/-- The interval a stepping station waits after the last step: none where it holds no step, its print period where a fire
pulse began, the slew period where none did (R43, R48). -/
def State.stepDue (s : State) : Micros :=
  match s.stepRecord with
  | none => 0
  | some r => r.time + (if r.pulse then s.straps.printPeriod else Config.slewPeriod)

/-- The class of a fault (R141). -/
def FaultKind.cls : FaultKind → Nat
  | .frameSkew | .inputOverrun | .barBroken => 0
  | .coverOpen | .paperOut | .dataCheck => 1

/-- The condition code of a fault (R141). -/
def FaultKind.code : FaultKind → Byte
  | .frameSkew => 0x01
  | .inputOverrun => 0x02
  | .barBroken => 0x03
  | .coverOpen => 0x11
  | .paperOut => 0x12
  | .dataCheck => 0x13

/-- The number of a warning in sense byte 6: bit k is the warning of code 0x21 + k (R164). -/
def Warning.bit : Warning → Nat
  | .layerOverflow => 0
  | .dataCheckBlanked => 1
  | .channelAbsent => 2
  | .shortRecord => 3
  | .longRecord => 4
  | .loadRejected => 5
  | .orderError => 6
  | .stationStarted => 7

/-- The condition code of a warning (R161). -/
def Warning.code (w : Warning) : Byte := BitVec.ofNat 8 (0x21 + w.bit)

/-- The class and the primary condition of a station (R162). -/
def State.condition (s : State) : Nat × Byte :=
  match s.faults.find? (fun f => f.cls == 0) with
  | some f => (0, f.code)
  | none =>
    match s.faults.find? (fun f => f.cls == 1) with
    | some f => (1, f.code)
    | none =>
      if s.mode = .stopped then (1, 0x14)
      else
        match s.warnings with
        | w :: _ => (2, w.code)
        | [] => (3, 0x00)

/-- The arbitration value: class × 8 + station number (R162). -/
def State.arbitrationValue (s : State) : Byte := BitVec.ofNat 8 (s.condition.1 * 8 + s.straps.station.toNat)

/-- A byte from its bits, bit 7 first. -/
def byteOf (b7 b6 b5 b4 b3 b2 b1 b0 : Bool) : Byte :=
  BitVec.ofBool b7 ++ BitVec.ofBool b6 ++ BitVec.ofBool b5 ++ BitVec.ofBool b4 ++
    BitVec.ofBool b3 ++ BitVec.ofBool b2 ++ BitVec.ofBool b1 ++ BitVec.ofBool b0

/-- The status byte: each bit driven low while its condition holds (R160, R163). -/
def State.statusByte (s : State) : Byte :=
  byteOf (!s.faulted) (!(s.mode == .forming || s.mode == .stopped)) (!(s.mode == .held)) (!s.overflow)
    (!(s.condition.1 != 3)) (!(!s.queue.isEmpty || s.motion.isSome)) (!(s.parser.state != .idle))
    (!(!s.inputBuffer.isEmpty))

/-- The mode's number in sense byte 2 (R164). STARTING takes no SENSE; its number is never reported. -/
def Mode.nibble : Mode → Nat
  | .starting => 0
  | .forming => 1
  | .stopped => 2
  | .online => 3
  | .held => 4

/-- Sense byte 2: the mode, bit 7 faulted, bit 6 a motion in progress, bit 5 a stop pending, bit 4 clear (R164). -/
def State.senseStatus (s : State) : Byte :=
  BitVec.ofNat 8 (s.mode.nibble + (if s.stops.any then 0x20 else 0) + (if s.motion.isSome then 0x40 else 0) +
    (if s.faulted then 0x80 else 0))

/-- Sense byte 6: bit k set while the warning of code 0x21 + k is held (R164). -/
def warnedByte (ws : List Warning) : Byte :=
  byteOf (ws.contains .stationStarted) (ws.contains .orderError) (ws.contains .loadRejected) (ws.contains .longRecord)
    (ws.contains .shortRecord) (ws.contains .channelAbsent) (ws.contains .dataCheckBlanked) (ws.contains .layerOverflow)

/-- Sense byte 7: the sequence of the oldest composite, or 0xFF for an empty queue (R164). -/
def State.oldestByte (s : State) : Byte :=
  match s.queue with
  | c :: _ => c.seq.setWidth 8
  | [] => 0xFF

/-- The sense snapshot of the state (R164). -/
def State.snapshot (s : State) : Snapshot :=
  { arbitration := s.arbitrationValue
    condition := s.condition.2
    status := s.senseStatus
    line := BitVec.ofNat 8 s.line
    countLow := s.formCount.setWidth 8
    countHigh := (s.formCount >>> 8).setWidth 8
    warned := warnedByte s.warnings
    oldest := s.oldestByte }

/-- Byte `i` of a snapshot (R164); beyond byte 7 nothing is driven (R166). -/
def Snapshot.byte (t : Snapshot) : Nat → Byte
  | 0 => t.arbitration
  | 1 => t.condition
  | 2 => t.status
  | 3 => t.line
  | 4 => t.countLow
  | 5 => t.countHigh
  | 6 => t.warned
  | 7 => t.oldest
  | _ => 0xFF

/-- The settling of an arbitration read, as R165 describes it, between this station's value, the lowest value of its peers,
and the bytes that stations outside the sense read hold on the lines (R168): from bit 4 downward, a side that drives a 1 and
finds the line low releases its lower bits; bits 5 to 7 are low. It gives the byte on the lines, and what this station drives
in the end, a released line as 1. Peers above the lowest drive nothing that it does not drive too (log 8). -/
def settleLines (own : Byte) (p : Peers) : Byte × Byte := go 5 true true
where
  /-- The lowest `n` bits of both; each flag says that the side still drives them. -/
  go : Nat → Bool → Bool → Byte × Byte
    | 0, _, _ => (0, 0)
    | n + 1, mine, theirs =>
      let a := !mine || own.getLsbD n
      let b := !theirs || p.lowest.getLsbD n
      let level := a && b && p.held.getLsbD n
      let rest := go n (mine && !(own.getLsbD n && !level)) (theirs && !(p.lowest.getLsbD n && !level))
      ((if level then BitVec.twoPow 8 n else 0) ||| rest.1, (if a then BitVec.twoPow 8 n else 0) ||| rest.2)

/-- The byte an arbitration read settles to (R165). -/
def arbitrate (own : Byte) (p : Peers) : Byte := (settleLines own p).1

/-- What this station drives of its arbitration value once the lines have settled: the lower bits it withdrew are released
(R165, R169). -/
def withdrawn (own : Byte) (p : Peers) : Byte := (settleLines own p).2

/-- What a station drives on an answered read strobe: its status byte outside a sense read (R160), its arbitration value
at index 0, less the bits it withdraws (R165, R169), the next snapshot byte at index 1 to 7 if it won, and nothing otherwise
(R166). -/
def State.readByte (p : Peers) (s : State) : Byte :=
  match s.senseRead with
  | none => s.statusByte
  | some r =>
    if r.index = 0 then withdrawn r.snapshot.arbitration p else if r.winner then r.snapshot.byte r.index else 0xFF

end Sys2Proof.Machine
end

