-- ==== Sys2Proof/Machine/Form.lean ====
section
/-! DEFINITION. The form unit's arithmetic: the motion plan of R31 to R38. -/

namespace Sys2Proof.Machine

/-- Dot rows, and so steps, a line (R24). -/
def Pitch.rows : Pitch → Nat
  | .twelve => 12
  | .nine => 9

/-- Line `line` of the form carries channel `c` (R24, R27). -/
def FormImage.carries (f : FormImage) (line c : Nat) : Bool :=
  1 ≤ c && (f.channels.getD line 0).getLsbD (c - 1)

/-- The lines a SKIP c moves: the least j from 1 to L whose line (n + j) mod L carries c, `none` where no line does
(R33). -/
def FormImage.skipLines (f : FormImage) (n c : Nat) : Option Nat :=
  ((List.range f.length).map (· + 1)).find? fun j => f.carries ((n + j) % f.length) c

/-- The action is a skip to a channel that no line of the form carries (R34). -/
def FormImage.channelAbsent (f : FormImage) (n : Nat) : Action → Bool
  | .space _ => false
  | .skip c => (f.skipLines n c).isNone

/-- The lines moved, j (R32, R33, R34). -/
def FormImage.linesMoved (f : FormImage) (n : Nat) : Action → Nat
  | .space k => k
  | .skip c => (f.skipLines n c).getD 1

/-- One of the lines passed, (n + 1) mod L to (n + j) mod L, carries channel `c` (R38). -/
def FormImage.passes (f : FormImage) (n j c : Nat) : Bool :=
  (List.range j).any fun i => f.carries ((n + (i + 1)) % f.length) c

/-- The overflow latch after a motion of `j` lines from line `n`, the landing judged first (R38). -/
def FormImage.overflowAfter (f : FormImage) (n j : Nat) (before : Bool) : Bool :=
  if f.carries ((n + j) % f.length) 1 then false else before || f.passes n j 12

/-- The motion plan of an action from line `n` with the latch as given (R31). -/
def FormImage.planFor (f : FormImage) (n : Nat) (latch : Bool) (a : Action) : Plan :=
  let j := f.linesMoved n a
  { lines := j
    distance := j * f.pitch.rows
    landing := (n + j) % f.length
    increase := (n + j) / f.length
    overflow := f.overflowAfter n j latch }

/-- The judgement of a staged LOAD FORM: the image to install, or `none` where the load is rejected (R28). -/
def FormStage.judge (g : FormStage) : Option FormImage :=
  match g.pitch, g.length with
  | .valid p, some l => if 1 ≤ l ∧ l ≤ 144 then some { pitch := p, length := l, channels := g.channels } else none
  | _, _ => none

end Sys2Proof.Machine
end

