-- ==== Sys2Proof/Machine/Glyphs.lean ====
section
/-! DEFINITION. The code table, the glyph store and the render arithmetic of R71. -/

namespace Sys2Proof.Machine

/-- The entry of the code table for a byte (R85). -/
def translate (table : List Cell) (v : Byte) : Cell := table.getD v.toNat .unprintable

/-- The fixed glyphs that R84 draws within rows 0 to 7: the figures (16 to 25), the capitals (33 to 58) but J and Q, the small
letters (65 to 90) but g, j, p, q and y. R84 gives letters with descenders rows 7 and 8 and does not list them; that these
seven may have one is PRESUMED (log 2). -/
def endsAtRowSeven (g : Nat) : Bool :=
  (16 ≤ g && g ≤ 25) || (33 ≤ g && g ≤ 58 && g != 42 && g != 49) ||
    (65 ≤ g && g ≤ 90 && g != 71 && g != 74 && g != 80 && g != 81 && g != 89)

/-- Row `r` of glyph `g` (R84): 0 blank, 95 solid, 96 to 127 as loaded, 1 to 94 the part's own dots, which are free
values; a figure or a letter without a descender has none in row 8, and glyph 63 sets its dots in row 8 (log 2). -/
def glyphRow (loadable : List Glyph) (g : BitVec 7) (r : Nat) : Byte :=
  if g.toNat = 0 then 0
  else if g.toNat = 63 then (if r = 8 then BitVec.ofNat 8 (Config.underscoreDots.val + 1) else 0)
  else if g.toNat ≤ 94 then (if r = 8 ∧ endsAtRowSeven g.toNat then 0 else Config.fixedGlyph g r)
  else if g.toNat = 95 then 0xFF
  else (loadable.getD (g.toNat - 96) []).getD r 0

/-- The glyph a cell renders with: BLANK and UNPRINTABLE render as glyph 0 (R71). -/
def Cell.rendered : Cell → BitVec 7
  | .glyph g => g
  | .blank => 0
  | .unprintable => 0

/-- Dot `e` of image row `r`: on when some layer's cell e / 8 names a glyph with bit 7 - e mod 8 set in row r (R71). -/
def dotOn (loadable : List Glyph) (layers : List Layer) (r e : Nat) : Bool :=
  layers.any fun l => (glyphRow loadable (l.getD (e / 8) .blank).rendered r).getLsbD (7 - e % 8)

/-- Image row `r`: dots 0 to 8W - 1 by `dotOn`, the rest of the row off (R67, R71). -/
def imageRow (loadable : List Glyph) (w : Nat) (layers : List Layer) (r : Nat) : DotRow :=
  (List.range 256).map fun e => decide (e < 8 * w) && dotOn loadable layers r e

/-- The image of a composite's layers: nine rows (R71). -/
def renderImage (loadable : List Glyph) (w : Nat) (layers : List Layer) : List DotRow :=
  (List.range 9).map fun r => imageRow loadable w layers r

/-- A row, and an image, with every dot off (R67, R70). -/
def blankRow : DotRow := List.replicate 256 false

/-- The image with every dot off (R70). -/
def blankImage : List DotRow := List.replicate 9 blankRow

/-- The code table with the entries for codes `f` on, `c` of them, replaced by the staged ones (R93). -/
def installCodes (table : List Cell) (f c : Nat) (entries : List Cell) : List Cell :=
  table.mapIdx fun i old => if f ≤ i ∧ i < f + c then entries.getD (i - f) old else old

/-- The loadable glyphs with glyph `g`, 96 to 127, replaced (R96). -/
def installGlyph (loadable : List Glyph) (g : Nat) (rows : List Byte) : List Glyph :=
  loadable.set (g - 96) rows

/-- The cells of a finished layer: a cell no byte reached is BLANK (R86). -/
def LayerBuild.complete (b : LayerBuild) : Layer := b.cells.map fun c => c.getD .blank

/-- A layer under construction with no byte taken (R103). -/
def LayerBuild.fresh (w : Nat) : LayerBuild := { cells := List.replicate w none }

/-- The mark after a cell of the station's columns was translated (R88). -/
def LayerBuild.markAfter (b : LayerBuild) (mode : CheckMode) (c : Cell) : Mark :=
  if c = .unprintable ∧ b.mark = .none then (match mode with | .blank => .blanked | .block => .blocking) else b.mark

/-- Cell `i` of the layer set to `c` (R85, R88). -/
def LayerBuild.place (b : LayerBuild) (mode : CheckMode) (i : Nat) (c : Cell) : LayerBuild :=
  { cells := b.cells.set i (some c), mark := b.markAfter mode c }

end Sys2Proof.Machine
end

