-- ==== Sys2Proof/Machine/Ops.lean ====
section
/-! DEFINITION. The shared operations on the state: warnings, faults, the queue, buffers, motions, stops, removals. -/

namespace Sys2Proof.Machine

/-- Adding to an ordered set: a member keeps its place, a new one goes to the end (R141, R161). -/
def addOnce {α : Type} [DecidableEq α] (a : α) (l : List α) : List α := if a ∈ l then l else l ++ [a]

/-- The first element for which `p` holds is replaced by `f` of it. -/
def updateFirst {α : Type} (p : α → Bool) (f : α → α) : List α → List α
  | [] => []
  | x :: xs => if p x then f x :: xs else x :: updateFirst p f xs

/-- The clock moves to `t` if it lies ahead: an event that falls due at `t` is taken then (log 4). -/
def State.waitUntil (t : Micros) (s : State) : State := { s with clock := max s.clock t }

/-! ## Warnings and faults -/

/-- A warning is raised (R161). -/
def State.raise (w : Warning) (s : State) : State := { s with warnings := addOnce w s.warnings }

/-- Warnings are raised one after the other. -/
def State.raiseAll (ws : List Warning) (s : State) : State := ws.foldl (fun t w => t.raise w) s

/-- Cutoff of a row: a running pulse ends and its row returns to DUE; any other row stays (R53). -/
def Row.cut (now : Micros) : Row → Row
  | .firing _ => .due now
  | r => r

/-- The frame timer holds still while FAULT is low (R57). -/
def FrameTimer.hold (now : Micros) : FrameTimer → FrameTimer
  | .running t => .still (now - t)
  | t => t

/-- The motion record as the station becomes faulted (R53, R57). -/
def Motion.cut (now : Micros) (m : Motion) : Motion := { m with row := m.row.cut now, timer := m.timer.hold now }

/-- The station becomes faulted: FAULT is low, the head is cut off, STEP is held low (R143, R144). -/
def State.cutoff (s : State) : State :=
  { s with faultLow := true, stepDrive := .held, motion := s.motion.map fun m => m.cut s.clock }

/-- A fault is recorded: at the end of the fault set unless it is held, FAULT held low, the station faulted (R141, R142,
R143). -/
def State.recordFault (f : FaultKind) (s : State) : State := { s.cutoff with faults := addOnce f s.faults }

/-- BLOCKED is cleared on every queued composite (R3). -/
def unblock (q : List Composite) : List Composite := q.map fun c => { c with flags := { c.flags with blocked := false } }

/-- The faults for which `p` holds are removed; the removal of DATA CHECK clears BLOCKED on every queued composite (R141,
R3). FAULT stays low until the station takes its rise (R143, log 6). -/
def State.removeFaults (p : FaultKind → Bool) (s : State) : State :=
  { s with
    faults := s.faults.filter fun f => !p f
    queue := if s.faults.contains .dataCheck && p .dataCheck then unblock s.queue else s.queue }

/-- The faults RESUME and KSTART remove: DATA CHECK, COVER OPEN with the cover closed, PAPER OUT with the paper present
(R134, R135). -/
def Inputs.resumeClears (i : Inputs) : FaultKind → Bool
  | .dataCheck => true
  | .coverOpen => i.coverClosed
  | .paperOut => i.paperPresent
  | _ => false

/-- The faults DISCARD removes (R133). -/
def discardClears : FaultKind → Bool
  | .inputOverrun | .barBroken | .dataCheck => true
  | _ => false

/-- The faults PINIT removes (R139). -/
def Inputs.pinitClears (i : Inputs) (f : FaultKind) : Bool := discardClears f || i.resumeClears f

/-! ## The line queue and the image buffers -/

/-- A composite is created at the end of the queue and the sequence counter advances modulo 128 (R1, R5, R7). -/
def State.createComposite (s : State) : State :=
  { s with queue := s.queue ++ [{ seq := s.counter }], counter := s.counter + 1 }

/-- A composite closes with its action: CLOSED with a layer, READY with none (R15). -/
def Composite.close (a : Action) (c : Composite) : Composite :=
  { c with action := some a, state := if c.layers.isEmpty then .ready else .closed }

/-- The OPEN composite is changed by `f`. -/
def State.onOpen (f : Composite → Composite) (s : State) : State :=
  { s with queue := updateFirst (fun c => c.state == .opened) f s.queue }

/-- The OPEN composite is closed with an action (R11, R12, R15). -/
def State.closeOpen (a : Action) (s : State) : State := s.onOpen (Composite.close a)

/-- A composite to which a layer is offered: appended with fewer than four layers, dropped otherwise, with the flags of
R3, R13, R14, R89 and R90. -/
def Composite.offer (l : Layer) (mark : Mark) (short : Bool) (c : Composite) : Composite :=
  let full := 4 ≤ c.layers.length
  { c with
    layers := if full then c.layers else c.layers ++ [l]
    flags :=
      { layerOverflow := c.flags.layerOverflow || full
        blocked := c.flags.blocked || (!full && mark == .blocking)
        short := c.flags.short || short } }

/-- The warnings an offer raises, in order: LAYER OVERFLOW or DATA CHECK BLANKED, then SHORT RECORD (R3, R14, R89). -/
def Composite.offerWarnings (mark : Mark) (short : Bool) (c : Composite) : List Warning :=
  let full := 4 ≤ c.layers.length
  (if full && !c.flags.layerOverflow then [.layerOverflow] else []) ++
    (if !full && mark == .blanked then [.dataCheckBlanked] else []) ++
    (if short && !c.flags.short then [.shortRecord] else [])

/-- A layer is offered to the OPEN composite (R104). -/
def State.offerLayer (l : Layer) (mark : Mark) (short : Bool) (s : State) : State :=
  match s.queue.find? (fun c => c.state == .opened) with
  | some c => (s.onOpen (Composite.offer l mark short)).raiseAll (c.offerWarnings mark short)
  | none => s

/-- A buffer is freed if the composite of this sequence holds it (R67). -/
def ImageBuffer.freeOf (q : BitVec 7) (b : ImageBuffer) : ImageBuffer :=
  if b.holder = some q then { b with holder := none } else b

/-- A buffer is freed; its image stays and is not read again (R70, R81). -/
def ImageBuffer.free (b : ImageBuffer) : ImageBuffer := { b with holder := none }

/-- The oldest composite leaves the queue; a buffer it still holds is freed (R18, R22, R76). -/
def State.departOldest (s : State) : State :=
  match s.queue with
  | c :: rest => { s with queue := rest, bufA := s.bufA.freeOf c.seq, bufB := s.bufB.freeOf c.seq }
  | [] => s

/-- The oldest composite's buffer is freed and the composite stays (R75). -/
def State.freeOldestBuffer (s : State) : State :=
  match s.queue with
  | c :: rest =>
    { s with queue := { c with buffer := none } :: rest, bufA := s.bufA.freeOf c.seq, bufB := s.bufB.freeOf c.seq }
  | [] => s

/-! ## Motions and stops -/

/-- The motion record and its plan are deleted: the station is at a boundary, holds STEP low and releases FRAME (R40, R56,
R59). -/
def State.dropMotion (s : State) : State :=
  { s with motion := none, plan := none, stepDrive := .held, frameDelay := none }

/-- A motion is withdrawn at s = 0: its composite returns to READY with its buffer (R59). -/
def State.withdraw (s : State) : State :=
  match s.motion with
  | some m =>
    { s.dropMotion with
      queue := if m.feed then s.queue else
        match s.queue with
        | c :: rest => { c with state := .ready } :: rest
        | [] => [] }
  | none => s

/-- The pending stops apply (R58). -/
def State.applyStops (s : State) : State :=
  let t := s.stops
  let u : State :=
    { s with
      stops := {}
      mode := if t.kstop then .stopped else if t.hold || t.discard then .held else s.mode }
  if t.paper then u.recordFault .paperOut else u

/-- A stop joins the pending-stop set (R131). -/
def StopSet.add (t : StopSet) : Stop → StopSet
  | .hold => { t with hold := true }
  | .discard => { t with discard := true }
  | .kstop => { t with kstop := true }
  | .paper => { t with paper := true }

/-- A stop is added: it applies at once at a boundary, at once through withdrawal at s = 0, and pends after the first step
(R58, R59, R131). -/
def State.addStop (t : Stop) (s : State) : State :=
  let u : State := { s with stops := s.stops.add t }
  match s.motion with
  | none => u.applyStops
  | some m => if m.steps = 0 then u.withdraw.applyStops else u

/-- A motion starts for an action: the plan, the motion record with s = 0, CHANNEL ABSENT where R34 requires, FRAME held
low, 50 us later at a frame event (R46, R54). -/
def State.beginMotion (feed firing : Bool) (a : Action) (s : State) : State :=
  let p := s.form.planFor s.line s.overflow a
  { s with
    plan := some p
    motion := some { feed := feed, distance := p.distance, firing := firing }
    stepDrive := .held
    frameDelay := if s.frameMoment then some s.clock else none
    warnings := if s.form.channelAbsent s.line a then addOnce .channelAbsent s.warnings else s.warnings }

/-- The plan is applied: landing, form count modulo 65536, overflow latch (R39). -/
def State.applyPlan (s : State) : State :=
  match s.plan with
  | some p =>
    { s with line := p.landing, formCount := s.formCount + BitVec.ofNat 16 p.increase, overflow := p.overflow }
  | none => s

/-- A motion at its end is concluded: the plan applied, its composite gone, the record deleted, the pending stops applied
(R56, steps 1 to 5). -/
def State.conclude (s : State) : State :=
  match s.motion with
  | some m =>
    let u := s.applyPlan
    let v := if m.feed then u else u.departOldest
    v.dropMotion.applyStops
  | none => s

/-- The position is set to the top of the form (R41). -/
def State.topOfForm (s : State) : State := { s with line := 0, formCount := 0, overflow := false }

/-! ## Abandonment and removal -/

/-- The parser becomes IDLE with nothing in hand; the data-check mode is kept (R98, R120). -/
def State.clearParser (s : State) : State := { s with parser := { checkMode := s.parser.checkMode } }

/-- The parser is set IDLE and the input buffer emptied (R120). -/
def State.abandonInput (s : State) : State := { s.clearParser with inputBuffer := [] }

/-- The queue, the counter, the render and the motion under DISCARD and PINIT (R19, R20): the printing composite is kept as
sequence 127 once its motion has stepped, everything else is removed, and a motion at s = 0 is withdrawn. `fires` says that
the kept composite goes on firing from its buffer (PINIT, R63); else firing turns OFF and the buffer is freed (DISCARD,
R62). -/
def State.removeComposites (fires : Bool) (s : State) : State :=
  let t : State := { s with counter := 0, render := none }
  let cleared : State := { t with queue := [], bufA := s.bufA.free, bufB := s.bufB.free }
  match s.motion with
  | none => cleared
  | some m =>
    if m.steps = 0 then cleared.dropMotion
    else if m.feed then cleared
    else
      match s.queue with
      | [] => cleared
      | c :: _ =>
        if fires then
          let keep (b : ImageBuffer) : ImageBuffer := { b with holder := if b.holder = some c.seq then some 127 else none }
          { t with queue := [{ c with seq := 127 }], bufA := keep s.bufA, bufB := keep s.bufB }
        else
          { cleared with
            queue := [{ c with seq := 127, buffer := none }]
            motion := some { m with firing := false, row := .none } }

/-- BAR BROKEN (R138). -/
def State.breakBar (s : State) : State :=
  let moved := match s.motion with
    | some m => decide (1 ≤ m.steps)
    | none => false
  let t : State :=
    { s.dropMotion.abandonInput with
      queue := []
      counter := 0
      render := none
      bufA := s.bufA.free
      bufB := s.bufB.free
      stops := {}
      mode := .forming
      formingInterval := none }
  let u := if moved then t.recordFault .frameSkew else t
  u.recordFault .barBroken

end Sys2Proof.Machine
end

