-- ==== Sys2Proof/Machine/Parser.lean ====
section
/-! DEFINITION. The record parser and the path of a strobed byte through the input buffer (R98 to R121, R155, R156). -/

namespace Sys2Proof.Machine

/-- The parser enters BODY of a record: its counts, its layer and its staging at their start (R98, R101, R102). -/
def State.enterBody (o : RecordOrder) (s : State) : State :=
  { s with
    parser :=
      { state := .body
        order := some o
        remaining := if o = .loadGlyph then some 10 else none
        layer := if isPrint o then some (.fresh s.straps.effective) else none
        checkMode := s.parser.checkMode } }

/-- The parser waits with an order in hand (R99). -/
def State.await (w : ParserState) (o : RecordOrder) (s : State) : State :=
  { s with parser := { state := w, order := some o, checkMode := s.parser.checkMode } }

/-- A line order with a composite to act on: a PRINT goes on to its body, a MOVE closes the composite (R10, R11, R12). -/
def State.takeLine (o : RecordOrder) (s : State) : State :=
  if isPrint o then s.enterBody o
  else
    match lineAction o with
    | some a => (s.closeOpen a).clearParser
    | none => s.clearParser

/-- A line order: it acts on the OPEN composite, or on one created with a place, or waits in AWAIT PLACE (R7). -/
def State.lineOrder (o : RecordOrder) (s : State) : State :=
  if s.hasOpen then s.takeLine o
  else if s.queue.length < 4 then s.createComposite.takeLine o
  else s.await .awaitPlace o

/-- A load order that waits for the drain (R112). -/
def State.drainOrder (o : RecordOrder) (s : State) : State :=
  if s.drained then s.enterBody o else s.await .awaitDrain o

/-- A record order taken in IDLE begins a record (R101). -/
def State.startRecord (o : RecordOrder) (s : State) : State :=
  match o with
  | .printSpace _ | .printSkip _ | .moveSpace _ | .moveSkip _ => s.lineOrder o
  | .loadForm | .loadGlyph => s.drainOrder o
  | .loadCodes => s.enterBody o
  | .checkBlank => { s with parser := { s.parser with checkMode := .blank } }
  | .checkBlock => { s with parser := { s.parser with checkMode := .block } }

/-- A PRINT record ends: the layer is offered, the order's action closes the composite, the parser is IDLE (R104, R116). -/
def State.finishPrint (o : RecordOrder) (short : Bool) (s : State) : State :=
  let b := s.parser.layer.getD (.fresh s.straps.effective)
  let t := s.offerLayer b.complete b.mark short
  let u := match lineAction o with
    | some a => t.closeOpen a
    | none => t
  u.clearParser

/-- A LOAD FORM body is complete: installed at the top of the form, or rejected (R28, R29). -/
def State.finishForm (s : State) : State :=
  match s.parser.formStage.judge with
  | some f => { s.topOfForm with form := f }.clearParser
  | none => (s.raise .loadRejected).clearParser

/-- A LOAD CODES body is complete: installed, or rejected when f + c > 256 (R93). -/
def State.finishCodes (s : State) : State :=
  match s.parser.codeStage.first, s.parser.codeStage.count with
  | some f, some c =>
    if f + c ≤ 256 then
      { s with codeTable := installCodes s.codeTable f c s.parser.codeStage.entries }.clearParser
    else (s.raise .loadRejected).clearParser
  | _, _ => (s.raise .loadRejected).clearParser

/-- A LOAD GLYPH body is complete: installed for an index from 96 to 127, else rejected (R95, R96). -/
def State.finishGlyph (s : State) : State :=
  match s.parser.glyphStage.index with
  | some g =>
    if 96 ≤ g ∧ g ≤ 127 then { s with loadable := installGlyph s.loadable g s.parser.glyphStage.rows }.clearParser
    else (s.raise .loadRejected).clearParser
  | none => (s.raise .loadRejected).clearParser

/-- The record in hand ends with its last body byte (R102). -/
def State.finishRecord (o : RecordOrder) (s : State) : State :=
  match o with
  | .printSpace _ | .printSkip _ => s.finishPrint o false
  | .loadForm => s.finishForm
  | .loadCodes => s.finishCodes
  | .loadGlyph => s.finishGlyph
  | _ => s.clearParser

/-- The record in hand is ended short (R116): a PRINT offers its layer, a load is dropped with SHORT RECORD and then LOAD
REJECTED. -/
def State.endShort (s : State) : State :=
  match s.parser.order with
  | some o =>
    if isPrint o then s.finishPrint o true
    else ((s.raise .shortRecord).raise .loadRejected).clearParser
  | none => s.clearParser

/-- The record goes on with `n` body bytes to come, or ends when there is none (R102). -/
def State.withRemaining (o : RecordOrder) (n : Nat) (s : State) : State :=
  let t : State := { s with parser := { s.parser with remaining := some n } }
  if n = 0 then t.finishRecord o else t

/-- A data byte of a PRINT body, the byte of the column the index names (R85, R103, R105). -/
def State.printByte (v : Byte) (s : State) : State :=
  let k := s.parser.column
  let p := { s.parser with column := k + 1 }
  let w := s.straps.effective
  if s.straps.fcol ≤ k ∧ k ≤ s.straps.fcol + w - 1 then
    let c := translate s.codeTable v
    let b := (p.layer.getD (.fresh w)).place p.checkMode (k - s.straps.fcol) c
    { s with parser := { p with layer := some b } }
  else if k ≤ 192 then { s with parser := p }
  else if p.longNote then { s with parser := p }
  else { s.raise .longRecord with parser := { p with longNote := true } }

/-- A channel byte of a LOAD FORM body: the lines of 144 on are taken and not staged (R27). -/
def FormStage.channelByte (v : Byte) (g : FormStage) : FormStage :=
  match g.half with
  | none => { g with half := some v }
  | some first =>
    { g with
      half := none
      channels := if g.channels.length < 144 then g.channels ++ [channelSet first v] else g.channels }

/-- An entry byte of a LOAD CODES body: an entry for a code of 256 or above is taken and not staged (R92). -/
def CodeStage.entryByte (v : Byte) (g : CodeStage) : CodeStage :=
  if g.first.getD 0 + g.entries.length < 256 then { g with entries := g.entries ++ [stageEntry v] } else g

/-- A body byte of the record in hand (R102). -/
def State.bodyByte (o : RecordOrder) (v : Byte) (s : State) : State :=
  let p := s.parser
  match o with
  | .printSpace _ | .printSkip _ =>
    match p.remaining with
    | none =>
      { s with
        parser := { p with column := 1, layer := some (.fresh s.straps.effective), longNote := false } }.withRemaining
          o v.toNat
    | some m => (s.printByte v).withRemaining o (m - 1)
  | .loadForm =>
    match p.formStage.pitch, p.remaining with
    | .absent, _ => { s with parser := { p with formStage := { p.formStage with pitch := stagePitch v } } }
    | _, none =>
      { s with parser := { p with formStage := { p.formStage with length := some v.toNat } } }.withRemaining o (2 * v.toNat)
    | _, some m => { s with parser := { p with formStage := p.formStage.channelByte v } }.withRemaining o (m - 1)
  | .loadCodes =>
    match p.codeStage.first, p.remaining with
    | none, _ => { s with parser := { p with codeStage := { p.codeStage with first := some v.toNat } } }
    | _, none =>
      { s with parser := { p with codeStage := { p.codeStage with count := some (entryCount v) } } }.withRemaining
        o (entryCount v)
    | _, some m => { s with parser := { p with codeStage := p.codeStage.entryByte v } }.withRemaining o (m - 1)
  | .loadGlyph =>
    let m := p.remaining.getD 10
    let g := match p.glyphStage.index with
      | none => { p.glyphStage with index := some v.toNat }
      | some _ => { p.glyphStage with rows := p.glyphStage.rows ++ [v] }
    { s with parser := { p with glyphStage := g } }.withRemaining o (m - 1)
  | _ => s

/-- An order byte taken by the parser: a record in hand ends short first; then the order begins its record, or is ignored
with ORDER ERROR (R101, R116, R117). -/
def State.takeOrder (v : Byte) (s : State) : State :=
  let t := match s.parser.state with
    | .body | .awaitDrain => s.endShort
    | _ => s
  match decodeRecordOrder v with
  | some o => t.startRecord o
  | none => t.raise .orderError

/-- A data byte taken by the parser: a body byte in BODY, a stray byte in IDLE (R102, R118). -/
def State.takeData (v : Byte) (s : State) : State :=
  match s.parser.state, s.parser.order with
  | .body, some o => s.bodyByte o v
  | _, _ => s.raise .orderError

/-- The parser takes the oldest byte of the input buffer in its present state (R99, R114, R115). -/
def Parser.takes (p : Parser) (b : PortByte) : Bool :=
  match p.state with
  | .idle | .body => true
  | .awaitPlace => false
  | .awaitDrain => b.order

/-- The parser takes bytes, oldest first, as long as its state takes the oldest; `n` bounds how many (R99, R155). -/
def State.runParser : Nat → State → State
  | 0, s => s
  | n + 1, s =>
    match s.inputBuffer with
    | b :: rest =>
      if s.parser.takes b then
        let t : State := { s with inputBuffer := rest }
        State.runParser n (if b.order then t.takeOrder b.value else t.takeData b.value)
      else s
    | [] => s

/-- The parser takes every byte its states let it take: each one taken leaves the buffer, so its length bounds them. -/
def State.parse (s : State) : State := s.runParser s.inputBuffer.length

/-- A byte for the input buffer: it joins the end and the parser takes what it can, or it is lost to overrun where the
buffer holds two bytes (R155, R156). -/
def State.receive (b : PortByte) (s : State) : State :=
  if s.inputBuffer.length < 2 then { s with inputBuffer := s.inputBuffer ++ [b] }.parse
  else s.recordFault .inputOverrun

/-- A write strobe at the rise of PSTR, up to its byte: the strobe is over, the data lines are released, and a strobe that
is taken ends a sense read (R154, R166, R169). -/
def State.writeRise (s : State) : State :=
  { s with
    strobe := .none
    pd := 0xFF
    senseRead := if s.answers then none else s.senseRead }

/-- A write strobe of a record byte: taken for the input buffer in STOPPED, ONLINE and HELD, disregarded in FORMING, not
taken at all where the station takes no strobe (R127, R154). -/
def State.strobeRecord (b : PortByte) (s : State) : State :=
  if s.answers && s.mode.working then s.writeRise.receive b else s.writeRise

end Sys2Proof.Machine
end

