-- ==== Sys2Proof/Machine/Moment.lean ====
section
/-! DEFINITION. The steps a station takes by itself in the moment of an event: the place grant, the drain end, the render
start and the motion start; their taking before the next command, with the release of a key; and what a step on an empty
queue takes, the rise of a status read among it (logs 5, 11 and 17). -/

namespace Sys2Proof.Machine

/-- A place is free for a line order in AWAIT PLACE (R8, R115). -/
def State.placeDue (s : State) : Bool :=
  s.parser.state == .awaitPlace && decide (s.queue.length < 4) &&
    (match s.parser.order with
      | some o => isLineOrder o
      | none => false)

/-- The place is granted: the waiting order goes on with a new composite, and the parser takes the bytes that wait (R8,
R115). -/
def State.grantPlace (s : State) : State :=
  if s.placeDue then
    match s.parser.order with
    | some o => (s.lineOrder o).parse
    | none => s
  else s

/-- The drain condition holds for a load in AWAIT DRAIN (R112). -/
def State.drainDue (s : State) : Bool := s.parser.state == .awaitDrain && s.drained && s.parser.order.isSome

/-- The drain wait ends: the parser enters BODY and takes the bytes that wait (R112). -/
def State.endDrain (s : State) : State :=
  if s.drainDue then
    match s.parser.order with
    | some o => (s.enterBody o).parse
    | none => s
  else s

/-- The buffer the next render takes: A when A is free, B when only B is (R69). -/
def State.freeBuffer (s : State) : Option Buf :=
  if s.bufA.holder.isNone then some .a else if s.bufB.holder.isNone then some .b else none

/-- A render can start: none in flight, a free buffer, a CLOSED composite (R69). -/
def State.renderDue (s : State) : Bool :=
  s.render.isNone && s.freeBuffer.isSome && s.queue.any fun c => c.state == .closed

/-- A render starts: the oldest CLOSED composite takes the buffer, whose dots are turned off (R69, R70). -/
def State.startRender (s : State) : State :=
  if s.renderDue then
    match s.freeBuffer, s.queue.find? (fun c => c.state == .closed) with
    | some buf, some c =>
      let taken : ImageBuffer := { holder := some c.seq, image := blankImage }
      { s with
        queue := updateFirst (fun x => x.state == .closed) (fun x => { x with state := .rendering, buffer := some buf })
          s.queue
        bufA := if buf = .a then taken else s.bufA
        bufB := if buf = .b then taken else s.bufB
        render := some
          { seq := c.seq, buffer := buf, duration := Config.renderPerLayer * c.layers.length, start := s.clock } }
    | _, _ => s
  else s

/-- The station is free to print and the oldest composite is READY, with its action (R44, R45). -/
def State.motionDue (s : State) : Bool :=
  s.motion.isNone && !s.faulted && s.mode == .online && !s.stops.any &&
    (match s.queue with
      | c :: _ => c.state == .ready && c.action.isSome
      | [] => false)

/-- The oldest READY composite starts its motion, or DATA CHECK is recorded where it is flagged BLOCKED (R44, R45, R46,
R149). -/
def State.startMotion (s : State) : State :=
  if s.motionDue then
    match s.queue with
    | c :: rest =>
      if c.flags.blocked then s.recordFault .dataCheck
      else
        match c.action with
        | some a =>
          { s with queue := { c with state := .printing } :: rest }.beginMotion false (!c.layers.isEmpty) a
        | none => s
    | [] => s
  else s

/-- A read strobe is over: the data lines are released (R169). -/
def State.readOver (s : State) : State := { s with strobe := .none, pd := 0xFF }

/-- A read strobe outside a sense read is in progress: its byte is held until its rise (R160, R169). -/
def State.statusReadOpen (s : State) : Bool :=
  match s.strobe with
  | .read _ => s.senseRead.isNone
  | _ => false

/-- The rise of a read strobe outside a sense read: the data lines are released, and nothing else changes (R160, R169). It comes
with a read row, with the next strobe, or with a step on an empty queue (log 17). -/
def State.endStatusRead (s : State) : State := if s.statusReadOpen then s.readOver else s

/-- A key's accepted level is pressed (R140). -/
def Inputs.keyDown (i : Inputs) : Bool := i.kstart || i.kstop || i.kfeed || i.ktof

/-- The accepted levels of the keys change back to released, which has no effect but that the next change to pressed is a press
again (R140). The table has no row for it (log 11). -/
def State.releaseKeys (s : State) : State :=
  { s with inputs := { s.inputs with kstart := false, kstop := false, kfeed := false, ktof := false } }

/-- The steps due in the present moment, taken in the order in which one can bring about the next. -/
def State.settle (s : State) : State := s.grantPlace.endDrain.startRender.startMotion

/-- Nothing is due in the present moment, it is not the frame event, and no key waits for its release (logs 5 and 11). -/
def State.quiet (s : State) : Bool :=
  !s.placeDue && !s.drainDue && !s.renderDue && !s.motionDue && !s.frameMoment && !s.inputs.keyDown

/-- The steps due at the last event are taken, its moment is over, and a key that it pressed is released: what comes next is a
new event (logs 5 and 11). A read strobe in progress stays: an event may fall within it (R160). -/
def State.catchUp (s : State) : State := { s.releaseKeys.settle with frameMoment := false }

/-- A step with no command waiting: the steps due are taken, and a status read in progress has its rise (logs 5 and 17). -/
def State.tick (s : State) : State := s.catchUp.endStatusRead

end Sys2Proof.Machine
end

