-- ==== Sys2Proof/Machine/Control.lean ====
section
/-! DEFINITION. The strobe of an order byte, which the port hands to station control, the sense unit or the input buffer by its
value (R154, R170); and the control orders, taken at the strobe whether or not PRDY is high (R158). -/

namespace Sys2Proof.Machine

/-- A control order strobed: it ends a sense read and acts where the station takes it (R154, R158). `acts` is its effect in
STOPPED, ONLINE and HELD, `forming` its effect in FORMING. -/
def strobeControl (forming acts : State → State) (s : State) : State :=
  let t := s.catchUp.writeRise
  if t.answers then (if t.mode.working then acts t else forming t) else t

/-- HOLD in STOPPED, ONLINE and HELD (R132). -/
def State.holdOrder (s : State) : State := if s.mode = .online then s.addStop .hold else s

/-- DISCARD in STOPPED, ONLINE and HELD (R133). -/
def State.discardOrder (s : State) : State :=
  let t := (s.removeComposites false).abandonInput.removeFaults discardClears
  if t.mode = .online then t.addStop .discard else t

/-- RESUME in STOPPED, ONLINE and HELD (R134). -/
def State.resumeOrder (s : State) : State :=
  let t := s.removeFaults s.inputs.resumeClears
  { t with
    stops := { t.stops with hold := false, discard := false }
    mode := if t.mode = .held then .online else t.mode }

/-- SENSE: the snapshot is taken and a sense read begins (R164). -/
def State.senseOrder (s : State) : State :=
  { s with senseRead := some { snapshot := s.snapshot, kinds := s.warnings } }

/-- A control order strobed: HOLD and RESUME are disregarded in FORMING, DISCARD removes its faults there and does nothing else,
SENSE is taken there too (R127, R132, R133, R134, R164). -/
def controlStrobe : ControlOrder → State → State
  | .hold => strobeControl (fun t => t) State.holdOrder
  | .discard => strobeControl (State.removeFaults discardClears) State.discardOrder
  | .resume => strobeControl (fun t => t) State.resumeOrder
  | .sense => strobeControl State.senseOrder State.senseOrder

/-- An order byte strobed with PATN high: a value of 0x01 to 0x04 is a control order and never reaches the parser; any other
goes to the input buffer (R154, R158, R170). -/
def strobeOrder (v : Byte) (s : State) : State :=
  match decodeControlOrder v with
  | some c => controlStrobe c s
  | none => s.catchUp.strobeRecord { value := v, order := true }

/-- HOLD (R132, R170). -/
def execHold (s : State) : Host.Outcome State Fault Refusal := .next (strobeOrder (encodeControlOrder .hold) s)

/-- DISCARD (R133, R170). -/
def execDiscard (s : State) : Host.Outcome State Fault Refusal := .next (strobeOrder (encodeControlOrder .discard) s)

/-- RESUME (R134, R170). -/
def execResume (s : State) : Host.Outcome State Fault Refusal := .next (strobeOrder (encodeControlOrder .resume) s)

/-- SENSE (R164, R170). -/
def execSense (s : State) : Host.Outcome State Fault Refusal := .next (strobeOrder (encodeControlOrder .sense) s)

end Sys2Proof.Machine
end

