-- ==== Sys2Proof/Machine/FaultLine.lean ====
section
/-! DEFINITION. The edges of FAULT (R142, R143, R144). -/

namespace Sys2Proof.Machine

/-- FAULT_FALL (R143): a station with an empty fault set becomes a bystander, with the cutoff of R144; one that holds FAULT
low itself is faulted already. -/
def execFaultFall (s : State) : Host.Outcome State Fault Refusal :=
  let t := s.catchUp
  .next (if t.faults.isEmpty then t.cutoff else t)

/-- A DUE row's 100 us run from the moment the fault ends (R53). -/
def Row.resume (now : Micros) : Row → Row
  | .due _ => .due now
  | r => r

/-- The frame timer starts again from 0 at each rise of FAULT (R57). -/
def FrameTimer.resume (now : Micros) : FrameTimer → FrameTimer
  | .still _ => .running now
  | t => t

/-- The motion record as the station ceases to be faulted (R53, R57). -/
def Motion.resume (now : Micros) (m : Motion) : Motion :=
  { m with row := m.row.resume now, timer := m.timer.resume now }

/-- A motion waits at its end with its row done, so the station releases FRAME (R54, R55). -/
def State.waiting (s : State) : Bool :=
  match s.motion with
  | some m => m.atEnd && m.row == .none
  | none => false

/-- FAULT_RISE (R143): the station ceases to be faulted. It restarts its frame timer and its DUE row, and concludes a motion
that waits at its end if FRAME is high (R53, R56, R57). A rise cannot be taken while the station holds FAULT low. -/
def execFaultRise (frameHigh : Bool) (s : State) : Host.Outcome State Fault Refusal :=
  let t := s.catchUp
  if t.faults.isEmpty ∧ t.faultLow then
    let u : State := { t with faultLow := false, motion := t.motion.map fun m => m.resume t.clock }
    .next (if frameHigh ∧ u.waiting then u.conclude else u)
  else .next t

end Sys2Proof.Machine
end

