-- ==== Sys2Proof/Machine/Formation.lean ====
section
/-! DEFINITION. Bar formation: the start and forming intervals and the accepted changes of JOIN (R125, R126, R137, R138). -/

namespace Sys2Proof.Machine

/-- START_INTERVAL_EXPIRY (R125, R126): JOIN is released and FORMING entered; the forming interval starts at once where JOIN
is accepted high. -/
def execStartIntervalExpiry (s : State) : Host.Outcome State Fault Refusal :=
  let t := s.catchUp
  match t.startInterval with
  | some t0 =>
    let u := t.waitUntil (t0 + Config.startInterval)
    .next
      { u with
        startInterval := none
        mode := .forming
        formingInterval := if u.inputs.joinHigh then some u.clock else none }
  | none => .next t

/-- The sensors as they are read at the entry to STOPPED from FORMING: COVER OPEN first, then PAPER (R145, R147). -/
def State.readSensors (s : State) : State :=
  let t := if s.inputs.coverClosed then s else s.recordFault .coverOpen
  if s.inputs.paperPresent then t else t.addStop .paper

/-- FORMING_INTERVAL_EXPIRY (R126, R145, R147): the station enters STOPPED and reads COVER and PAPER. -/
def execFormingIntervalExpiry (s : State) : Host.Outcome State Fault Refusal :=
  let t := s.catchUp
  match t.formingInterval with
  | some t0 =>
    let u := t.waitUntil (t0 + Config.formingInterval)
    .next { u with formingInterval := none, mode := .stopped }.readSensors
  | none => .next t

/-- JOIN_RISE (R126): in FORMING the forming interval starts from 0. -/
def execJoinRise (s : State) : Host.Outcome State Fault Refusal :=
  let t := s.catchUp
  if t.rstLow ∨ t.inputs.joinHigh then .next t
  else
    .next
      { t with
        inputs := { t.inputs with joinHigh := true }
        formingInterval := if t.mode = .forming then some t.clock else t.formingInterval }

/-- JOIN_FALL (R137): BAR BROKEN in STOPPED, ONLINE and HELD; in FORMING the forming interval is cleared. -/
def execJoinFall (s : State) : Host.Outcome State Fault Refusal :=
  let t := s.catchUp
  if t.rstLow ∨ t.inputs.joinHigh = false then .next t
  else
    let u : State := { t with inputs := { t.inputs with joinHigh := false } }
    if t.mode.working then .next u.breakBar
    else if t.mode = .forming then .next { u with formingInterval := none }
    else .next u

end Sys2Proof.Machine
end

