-- ==== Sys2Proof/Machine/Motion.lean ====
section
/-! DEFINITION. The step handshake, the firing of rows, the frame event and the motion start (R43 to R58). -/

namespace Sys2Proof.Machine

/-- The motion record after a step of a stepping station (R49, R55): s advances; row s - 1 falls due when firing is ON and
s is from 1 to 9; at s = D the frame timer starts from 0, holding still while FAULT is low (R57). -/
def Motion.takeStep (now : Micros) (faultLow : Bool) (m : Motion) : Motion :=
  { m with
    steps := m.steps + 1
    row := if m.firing && decide (m.steps + 1 ≤ 9) then .due now else .none
    timer := if m.steps + 1 = m.distance then (if faultLow then .still 0 else .running now) else m.timer }

/-- STEP (R49, R50): a stepping station counts the step; a step with no motion or at a motion's end records FRAME SKEW. In
full reset and STARTING the station takes no step: it holds STEP low from the first moment of its reset (R125). -/
def execStep (s : State) : Host.Outcome State Fault Refusal :=
  let t := s.catchUp
  if t.rstLow ∨ t.mode = .starting then .next t
  else
    match t.motion with
    | some m =>
      if m.atEnd then .next (t.recordFault .frameSkew)
      else
        .next
          { t with
            motion := some (m.takeStep t.clock t.faultLow)
            stepRecord := some { time := t.clock, pulse := false }
            stepDrive := if t.faulted then .held else .pulse }
    | none => .next (t.recordFault .frameSkew)

/-- FRAME_EVENT (R56): a motion that waits at its end at a station that is not faulted is concluded; any other station is
left as it is. -/
def execFrameEvent (s : State) : Host.Outcome State Fault Refusal :=
  let t := s.catchUp
  if t.waiting ∧ !t.faulted then .next { t.conclude with frameMoment := true } else .next t

/-- STEP_PULSE_END (R47): STEP is pulled low 50 us after the step. -/
def execStepPulseEnd (s : State) : Host.Outcome State Fault Refusal :=
  let t := s.catchUp
  match t.stepDrive, t.stepRecord with
  | .pulse, some r => .next { t.waitUntil (r.time + Config.stepPulse) with stepDrive := .held }
  | _, _ => .next t

/-- The station may release STEP once the step interval has elapsed: stepping, the row NONE, not faulted (R48). -/
def State.mayRelease (s : State) : Bool :=
  s.stepping && !s.faulted && s.stepDrive != .released &&
    (match s.motion with
      | some m => m.row == .none
      | none => false)

/-- STEP_RELEASE (R48): the step interval has elapsed and STEP is released for the next step. -/
def execStepRelease (s : State) : Host.Outcome State Fault Refusal :=
  let t := s.catchUp
  .next (if t.mayRelease then { t.waitUntil t.stepDue with stepDrive := .released } else t)

/-- The image row that step s brings under the head: row s - 1 of the buffer the printing composite holds (R51, R79). -/
def State.dueRow (s : State) (steps : Nat) : DotRow :=
  match s.queue with
  | c :: _ =>
    match c.buffer with
    | some .a => s.bufA.image.getD (steps - 1) []
    | some .b => s.bufB.image.getD (steps - 1) []
    | none => []
  | [] => []

/-- FIRE_PULSE_START (R51, R53): the DUE row is shifted into the latches and its fire pulse begins, at a station that is not
faulted. DESIGN CHOICE (log 31): the shift, which R51 puts within the 100 us before the pulse, is taken at the moment the pulse
begins, so a row cut off or discarded while DUE never reaches the latches. -/
def execFirePulseStart (s : State) : Host.Outcome State Fault Refusal :=
  let t := s.catchUp
  match t.motion with
  | some m =>
    match m.row with
    | .due since =>
      if t.faulted then .next t
      else
        let u := t.waitUntil (since + Config.fireDelay)
        .next
          { u with
            motion := some { m with row := .firing u.clock }
            stepRecord := u.stepRecord.map fun r => { r with pulse := true }
            headLatch := (u.dueRow m.steps).take (8 * u.straps.effective) }
    | _ => .next t
  | none => .next t

/-- FIRE_PULSE_END (R52, R75): the pulse has run its full width and the row is NONE; the end of row 8's frees the composite's
buffer. -/
def execFirePulseEnd (s : State) : Host.Outcome State Fault Refusal :=
  let t := s.catchUp
  match t.motion with
  | some m =>
    match m.row with
    | .firing since =>
      let u : State :=
        { t.waitUntil (since + t.straps.fireWidth) with motion := some { m with row := .none } }
      .next (if m.steps = 9 then u.freeOldestBuffer else u)
    | _ => .next t
  | none => .next t

/-- FRAME_HOLD_DELAY (R54): FRAME is held low from here on. -/
def execFrameHoldDelay (s : State) : Host.Outcome State Fault Refusal :=
  let t := s.catchUp
  match t.frameDelay with
  | some t0 => .next { t.waitUntil (t0 + Config.frameHold) with frameDelay := none }
  | none => .next t

/-- FRAME_TIMER_EXPIRY (R57): a running timer reaches 100 ms, is expired, and FRAME SKEW is recorded. -/
def execFrameTimerExpiry (s : State) : Host.Outcome State Fault Refusal :=
  let t := s.catchUp
  match t.motion with
  | some m =>
    match m.timer with
    | .running t0 =>
      .next
        ({ t.waitUntil (t0 + Config.frameTimeout) with
            motion := some { m with timer := .expired } }.recordFault .frameSkew)
    | _ => .next t
  | none => .next t

/-- MOTION_START (R44, R45, R46, R149): the step by itself, where it is due. -/
def execMotionStart (s : State) : Host.Outcome State Fault Refusal := .next s.startMotion

end Sys2Proof.Machine
end

