-- ==== Sys2Proof/Machine/Panel.lean ====
section
/-! DEFINITION. The interlocks and the operator's keys (R134 to R136, R140, R145 to R148, R151, R152). Each row is a change of an
accepted level. An input filter does not run while RST is low, and a row that brings the level already accepted is no change;
both leave the state as it is (R140, logs 11 and 18). A key row is the change from released to pressed: the key's change back to
released, which has no other effect, is taken before the next event (`State.releaseKeys`). -/

namespace Sys2Proof.Machine

/-- COVER_OPEN (R145). -/
def execCoverOpen (s : State) : Host.Outcome State Fault Refusal :=
  let t := s.catchUp
  if t.rstLow ∨ t.inputs.coverClosed = false then .next t
  else
    let u : State := { t with inputs := { t.inputs with coverClosed := false } }
    .next (if t.mode.working then u.recordFault .coverOpen else u)

/-- COVER_CLOSED (R146): COVER OPEN stays in the fault set. -/
def execCoverClosed (s : State) : Host.Outcome State Fault Refusal :=
  let t := s.catchUp
  if t.rstLow then .next t else .next { t with inputs := { t.inputs with coverClosed := true } }

/-- PAPER_ABSENT (R147). -/
def execPaperAbsent (s : State) : Host.Outcome State Fault Refusal :=
  let t := s.catchUp
  if t.rstLow ∨ t.inputs.paperPresent = false then .next t
  else
    let u : State := { t with inputs := { t.inputs with paperPresent := false } }
    .next (if t.mode.working then u.addStop .paper else u)

/-- PAPER_PRESENT (R148): no stop and no fault is removed. -/
def execPaperPresent (s : State) : Host.Outcome State Fault Refusal :=
  let t := s.catchUp
  if t.rstLow then .next t else .next { t with inputs := { t.inputs with paperPresent := true } }

/-- A KSTART press in STOPPED, ONLINE and HELD (R135). -/
def State.startKey (s : State) : State :=
  let t := s.removeFaults s.inputs.resumeClears
  { t with
    stops := { t.stops with kstop := false }
    mode := if t.mode = .stopped then .online else t.mode }

/-- KSTART (R135). -/
def execKstart (s : State) : Host.Outcome State Fault Refusal :=
  let t := s.catchUp
  if t.rstLow then .next t
  else
    let u : State := { t with inputs := { t.inputs with kstart := true } }
    .next (if t.mode.working then u.startKey else u)

/-- A KSTOP press in STOPPED withdraws a motion at s = 0, a FEED (R61, R136). -/
def State.stopFeed (s : State) : State :=
  match s.motion with
  | some m => if m.steps = 0 then s.withdraw else s
  | none => s

/-- A KSTOP press, by the mode (R136). -/
def State.stopKey (s : State) : State :=
  match s.mode with
  | .online => s.addStop .kstop
  | .held => { s with mode := .stopped }
  | .stopped => s.stopFeed
  | .starting => s
  | .forming => s

/-- KSTOP (R136). -/
def execKstop (s : State) : Host.Outcome State Fault Refusal :=
  let t := s.catchUp
  if t.rstLow then .next t
  else
    let u : State := { t with inputs := { t.inputs with kstop := true } }
    .next u.stopKey

/-- The parser is taking the body of a LOAD FORM (R108, R151). -/
def State.takingForm (s : State) : Bool := s.parser.state == .body && s.parser.order == some .loadForm

/-- A KFEED press is accepted (R151). -/
def State.feedAccepted (s : State) : Bool :=
  s.mode == .stopped && !s.faulted && s.motion.isNone && !s.takingForm

/-- KFEED (R61, R151): a FEED motion starts, with the action SKIP 1 and firing OFF. -/
def execKfeed (s : State) : Host.Outcome State Fault Refusal :=
  let t := s.catchUp
  if t.rstLow then .next t
  else
    let u : State := { t with inputs := { t.inputs with kfeed := true } }
    .next (if u.feedAccepted then u.beginMotion true false (.skip 1) else u)

/-- A KTOF press is accepted (R152). -/
def State.tofAccepted (s : State) : Bool :=
  s.mode == .starting || s.mode == .forming || (s.mode == .stopped && s.motion.isNone) || s.faulted

/-- KTOF abandons a motion and removes its composite (R22, R65). -/
def State.abandonMotion (s : State) : State :=
  match s.motion with
  | some m => (if m.feed then s else s.departOldest).dropMotion
  | none => s

/-- FRAME SKEW alone, the fault KTOF removes (R152). -/
def tofClears : FaultKind → Bool
  | .frameSkew => true
  | _ => false

/-- KTOF (R152): the motion abandoned, the position at the top of the form, FRAME SKEW removed, and the pending stops applied
where a motion was abandoned. -/
def execKtof (s : State) : Host.Outcome State Fault Refusal :=
  let t := s.catchUp
  if t.rstLow then .next t
  else
    let u : State := { t with inputs := { t.inputs with ktof := true } }
    if u.tofAccepted then
      let v := u.abandonMotion.topOfForm.removeFaults tofClears
      .next (if u.motion.isSome then v.applyStops else v)
    else .next u

end Sys2Proof.Machine
end

