-- ==== Sys2Proof/Machine/Reads.lean ====
section
/-! DEFINITION. The fall of PSTR and the read strobes of a sense read (R154, R157, R160, R165 to R168). -/

namespace Sys2Proof.Machine

/-- A read strobe counts for the station: it answers, and did so at the fall where the fall was given (R154, R166). DESIGN
CHOICE (log 32): a PINIT pulse that falls and rises within the strobe leaves it an answered one, since no rule says. -/
def State.readTaken (s : State) : Bool :=
  s.answers && s.strobe != .read false

/-- A winner consumes its snapshot: the kinds the snapshot holds leave the warning set (R167). -/
def State.consume (kinds : List Warning) (s : State) : State :=
  { s with warnings := s.warnings.filter fun w => !kinds.contains w }

/-- PSTR_FALL (R157): a write strobe begins; or a read strobe begins and, where it is answered, its byte is driven (R160,
R165, R166). An arbitration read settles within its strobe, and the model takes the settling with the fall (log 30). -/
def execPstrFall (dir : StrobeDir) (s : State) : Host.Outcome State Fault Refusal :=
  let t := s.catchUp
  match dir with
  | .write => .next { t with strobe := .write, pd := 0xFF }
  | .read peers => .next { t with strobe := .read t.answers, pd := if t.answers then t.readByte peers else 0xFF }

/-- ARBITRATION_READ at its rise (R165): the station whose value is the settled byte wins, and the index becomes 1. -/
def execArbitrationRead (peers : Peers) (s : State) : Host.Outcome State Fault Refusal :=
  let t := s.catchUp
  match t.senseRead with
  | some r =>
    if t.readTaken ∧ r.index = 0 then
      .next
        { t.readOver with
          senseRead := some
            { r with index := 1, winner := arbitrate r.snapshot.arbitration peers == r.snapshot.arbitration } }
    else .next t.readOver
  | none => .next t.readOver

/-- SENSE_RECORD_READ at its rise (R166): the index advances, up to 8; at index 7 a winner consumes its snapshot (R167). -/
def execSenseRecordRead (s : State) : Host.Outcome State Fault Refusal :=
  let t := s.catchUp
  match t.senseRead with
  | some r =>
    if t.readTaken ∧ 1 ≤ r.index then
      let u : State := { t.readOver with senseRead := some { r with index := if r.index < 8 then r.index + 1 else 8 } }
      .next (if r.index = 7 ∧ r.winner then u.consume r.kinds else u)
    else .next t.readOver
  | none => .next t.readOver

end Sys2Proof.Machine
end

