-- ==== Sys2Proof/Machine/Records.lean ====
section
/-! DEFINITION. The record strobes: the eleven rows whose command is a byte strobed for the input buffer. -/

namespace Sys2Proof.Machine

/-- PRINT_SPACE (R10, R101, R170). -/
def execPrintSpace (k : Nat) (s : State) : Host.Outcome State Fault Refusal :=
  .next (strobeOrder (encodeRecordOrder (.printSpace k)) s)

/-- PRINT_SKIP (R11, R101, R170). -/
def execPrintSkip (c : Nat) (s : State) : Host.Outcome State Fault Refusal :=
  .next (strobeOrder (encodeRecordOrder (.printSkip c)) s)

/-- MOVE_SPACE (R12, R106, R170). -/
def execMoveSpace (k : Nat) (s : State) : Host.Outcome State Fault Refusal :=
  .next (strobeOrder (encodeRecordOrder (.moveSpace k)) s)

/-- MOVE_SKIP (R12, R106, R170). -/
def execMoveSkip (c : Nat) (s : State) : Host.Outcome State Fault Refusal :=
  .next (strobeOrder (encodeRecordOrder (.moveSkip c)) s)

/-- LOAD_FORM (R108, R170). -/
def execLoadForm (s : State) : Host.Outcome State Fault Refusal :=
  .next (strobeOrder (encodeRecordOrder .loadForm) s)

/-- LOAD_CODES (R109, R170). -/
def execLoadCodes (s : State) : Host.Outcome State Fault Refusal :=
  .next (strobeOrder (encodeRecordOrder .loadCodes) s)

/-- LOAD_GLYPH (R110, R170). -/
def execLoadGlyph (s : State) : Host.Outcome State Fault Refusal :=
  .next (strobeOrder (encodeRecordOrder .loadGlyph) s)

/-- CHECK_BLANK (R87, R107). -/
def execCheckBlank (s : State) : Host.Outcome State Fault Refusal :=
  .next (strobeOrder (encodeRecordOrder .checkBlank) s)

/-- CHECK_BLOCK (R87, R107). -/
def execCheckBlock (s : State) : Host.Outcome State Fault Refusal :=
  .next (strobeOrder (encodeRecordOrder .checkBlock) s)

/-- UNKNOWN_ORDER (R117, R170). -/
def execUnknownOrder (v : Byte) (s : State) : Host.Outcome State Fault Refusal :=
  .next (strobeOrder v s)

/-- DATA_BYTE (R100, R102, R118): a byte strobed with PATN low. -/
def execDataByte (v : Byte) (s : State) : Host.Outcome State Fault Refusal :=
  .next (s.catchUp.strobeRecord { value := v, order := false })

end Sys2Proof.Machine
end

