-- ==== Sys2Proof/Machine/Render.lean ====
section
/-! DEFINITION. Render start and render completion (R69 to R73). -/

namespace Sys2Proof.Machine

/-- RENDER_START (R69, R70): the step by itself, where it is due. -/
def execRenderStart (s : State) : Host.Outcome State Fault Refusal := .next s.startRender

/-- The render completes: its buffer holds the image of its composite's layers, the composite is READY, the record is
deleted (R71, R72). -/
def State.completeRender (r : RenderRecord) (s : State) : State :=
  let layers := match s.queue.find? (fun c => c.state == .rendering) with
    | some c => c.layers
    | none => []
  let image := renderImage s.loadable s.straps.effective layers
  { s with
    queue := updateFirst (fun c => c.state == .rendering) (fun c => { c with state := .ready }) s.queue
    bufA := if r.buffer = .a then { s.bufA with image := image } else s.bufA
    bufB := if r.buffer = .b then { s.bufB with image := image } else s.bufB
    render := none }

/-- RENDER_COMPLETION (R72): the render in flight has run its duration. -/
def execRenderCompletion (s : State) : Host.Outcome State Fault Refusal :=
  let t := s.catchUp
  match t.render with
  | some r => .next ((t.waitUntil (r.start + r.duration)).completeRender r)
  | none => .next t

end Sys2Proof.Machine
end

