-- ==== Sys2Proof/Machine/Resets.lean ====
section
/-! DEFINITION. PINIT and RST (R122, R125, R139, R159). -/

namespace Sys2Proof.Machine

/-- The port reset at every block of a station in STOPPED, ONLINE or HELD (R20, R63, R120, R139, R159). -/
def State.portReset (s : State) : State :=
  let t := (s.removeComposites true).abandonInput.removeFaults s.inputs.pinitClears
  { t with
    senseRead := none
    stops := {}
    mode := if t.mode = .held then .online else t.mode }

/-- PINIT_FALL (R159): PINIT is low and timed; the station answers no read, so it releases the data lines (R154). DESIGN CHOICE
(log 32): within a read strobe already answered it releases them for the rest of that strobe. -/
def execPinitFall (s : State) : Host.Outcome State Fault Refusal :=
  let t := s.catchUp
  .next { t with pinitLowSince := some (t.pinitLowSince.getD t.clock), pd := 0xFF }

/-- PINIT (R159): the rise of PINIT. A low level of at least 10 us acts in STOPPED, ONLINE and HELD; any other is
disregarded. -/
def execPinit (lowFor : Micros) (s : State) : Host.Outcome State Fault Refusal :=
  let t := s.catchUp
  let u : State := { t with pinitLowSince := none }.waitUntil (t.pinitLowSince.getD t.clock + lowFor)
  .next (if Config.pinitQualify ≤ lowFor ∧ t.mode.working ∧ !t.rstLow then u.portReset else u)

/-- FULL_RESET (R125): every block takes its reset state. The levels other parts drive (FAULT, PINIT), the external latches,
the clock and the waiting commands are not the station's to reset (log 23). -/
def execFullReset (s : State) : Host.Outcome State Fault Refusal :=
  let t := s.catchUp
  .next
    { State.reset with
      clock := t.clock
      faultLow := t.faultLow
      pinitLowSince := t.pinitLowSince
      headLatch := t.headLatch
      pending := t.pending }

/-- RESET_RELEASE (R122, R125, R140, R159): the straps are sampled, the filters start from their levels, STARTING is entered
and the start interval begins. -/
def execResetRelease (pins : StrapPins) (s : State) : Host.Outcome State Fault Refusal :=
  let t := s.catchUp
  if t.rstLow then
    .next
      { t with
        rstLow := false
        straps := .sample pins
        mode := .starting
        inputs := {}
        startInterval := some t.clock
        pinitLowSince := t.pinitLowSince.map fun _ => t.clock }
  else .next t

end Sys2Proof.Machine
end

