-- ==== Sys2Proof/Machine/Waits.lean ====
section
/-! DEFINITION. The ends of the parser's two waits (R8, R112, R115). -/

namespace Sys2Proof.Machine

/-- PLACE_GRANT (R8, R115): the step by itself, where it is due. -/
def execPlaceGrant (s : State) : Host.Outcome State Fault Refusal := .next s.grantPlace

/-- DRAIN_END (R112): the step by itself, where it is due. -/
def execDrainEnd (s : State) : Host.Outcome State Fault Refusal := .next s.endDrain

end Sys2Proof.Machine
end

