-- ==== Sys2Proof/Machine/Dispatch.lean ====
section
/-! DEFINITION. One arm for each command: a direct call of its meaning. -/

namespace Sys2Proof.Machine

/-- The effect of a command on everything but the queue of commands. -/
def exec (i : Instr) (s : State) : Host.Outcome State Fault Refusal :=
  match i with
  | .printSpace k => Sys2Proof.Machine.execPrintSpace k s
  | .printSkip c => Sys2Proof.Machine.execPrintSkip c s
  | .moveSpace k => Sys2Proof.Machine.execMoveSpace k s
  | .moveSkip c => Sys2Proof.Machine.execMoveSkip c s
  | .loadForm => Sys2Proof.Machine.execLoadForm s
  | .loadCodes => Sys2Proof.Machine.execLoadCodes s
  | .loadGlyph => Sys2Proof.Machine.execLoadGlyph s
  | .checkBlank => Sys2Proof.Machine.execCheckBlank s
  | .checkBlock => Sys2Proof.Machine.execCheckBlock s
  | .unknownOrder v => Sys2Proof.Machine.execUnknownOrder v s
  | .dataByte v => Sys2Proof.Machine.execDataByte v s
  | .hold => Sys2Proof.Machine.execHold s
  | .discard => Sys2Proof.Machine.execDiscard s
  | .resume => Sys2Proof.Machine.execResume s
  | .sense => Sys2Proof.Machine.execSense s
  | .arbitrationRead peers => Sys2Proof.Machine.execArbitrationRead peers s
  | .senseRecordRead => Sys2Proof.Machine.execSenseRecordRead s
  | .pinitFall => Sys2Proof.Machine.execPinitFall s
  | .pinit lowFor => Sys2Proof.Machine.execPinit lowFor s
  | .fullReset => Sys2Proof.Machine.execFullReset s
  | .resetRelease pins => Sys2Proof.Machine.execResetRelease pins s
  | .startIntervalExpiry => Sys2Proof.Machine.execStartIntervalExpiry s
  | .formingIntervalExpiry => Sys2Proof.Machine.execFormingIntervalExpiry s
  | .joinRise => Sys2Proof.Machine.execJoinRise s
  | .joinFall => Sys2Proof.Machine.execJoinFall s
  | .coverOpen => Sys2Proof.Machine.execCoverOpen s
  | .coverClosed => Sys2Proof.Machine.execCoverClosed s
  | .paperAbsent => Sys2Proof.Machine.execPaperAbsent s
  | .paperPresent => Sys2Proof.Machine.execPaperPresent s
  | .kstart => Sys2Proof.Machine.execKstart s
  | .kstop => Sys2Proof.Machine.execKstop s
  | .kfeed => Sys2Proof.Machine.execKfeed s
  | .ktof => Sys2Proof.Machine.execKtof s
  | .faultFall => Sys2Proof.Machine.execFaultFall s
  | .faultRise frameHigh => Sys2Proof.Machine.execFaultRise frameHigh s
  | .step => Sys2Proof.Machine.execStep s
  | .frameEvent => Sys2Proof.Machine.execFrameEvent s
  | .stepPulseEnd => Sys2Proof.Machine.execStepPulseEnd s
  | .stepRelease => Sys2Proof.Machine.execStepRelease s
  | .firePulseStart => Sys2Proof.Machine.execFirePulseStart s
  | .firePulseEnd => Sys2Proof.Machine.execFirePulseEnd s
  | .frameHoldDelay => Sys2Proof.Machine.execFrameHoldDelay s
  | .frameTimerExpiry => Sys2Proof.Machine.execFrameTimerExpiry s
  | .motionStart => Sys2Proof.Machine.execMotionStart s
  | .renderStart => Sys2Proof.Machine.execRenderStart s
  | .renderCompletion => Sys2Proof.Machine.execRenderCompletion s
  | .placeGrant => Sys2Proof.Machine.execPlaceGrant s
  | .drainEnd => Sys2Proof.Machine.execDrainEnd s
  | .pstrFall dir => Sys2Proof.Machine.execPstrFall dir s

end Sys2Proof.Machine
end

