-- ==== Sys2Proof/Machine/Step.lean ====
section
/-! DEFINITION. One step of the block: the command at the front of the queue, or the steps due at this moment. -/

namespace Sys2Proof.Machine

/-- One step. With a command waiting, the front one is taken and run on the state with the queue's rest. With none, the
station takes the steps due at this moment and the rise of a status read in progress, and otherwise idles (logs 5
and 17). -/
def step (s : State) : Host.Outcome State Fault Refusal :=
  match s.pending with
  | c :: rest => exec c { s with pending := rest }
  | [] => .next s.tick

/-- The state with the command a table word spells at the front of its queue; no table word spells one (log 24). -/
def State.withFetchWord (s : State) (nbits w : Nat) : State :=
  match decodeTableWord nbits w with
  | some c => { s with pending := c :: s.pending }
  | none => s

end Sys2Proof.Machine
end

