-- ==== Sys2Proof/Safety.lean ====
section
/-! DEFINITION. What a good state of a station is: the facts the rules of spec/ state of every station, as decidable
predicates, and their conjunction. Each is a Bool, so that a state can be tested against it. -/

namespace Sys2Proof.Machine

/-- All but the last element satisfy `p`. -/
def allButLast {α : Type} (p : α → Bool) : List α → Bool
  | [] => true
  | [_] => true
  | x :: y :: rest => p x && allButLast p (y :: rest)

/-- The line queue holds at most four composites; an OPEN one is the newest, a PRINTING one the oldest (R4, R17). -/
def State.queueShape (s : State) : Bool :=
  decide (s.queue.length ≤ 4) && allButLast (fun c => c.state != .opened) s.queue &&
    s.queue.tail.all fun c => c.state != .printing

/-- The sequence numbers run consecutively, modulo 128, from `q`; the result is the number that follows (R5). -/
def runsFrom (q : BitVec 7) : List Composite → Option (BitVec 7)
  | [] => some q
  | c :: rest => if c.seq = q then runsFrom (q + 1) rest else none

/-- The sequence numbers run consecutively and the counter follows the newest (R5). -/
def State.sequencesRun (s : State) : Bool :=
  match s.queue with
  | [] => true
  | c :: _ => runsFrom c.seq s.queue == some s.counter

/-- A carriage action is SPACE 1 to 3 or SKIP 1 to 12 (R1). -/
def Action.fits : Action → Bool
  | .space k => decide (1 ≤ k ∧ k ≤ 3)
  | .skip c => decide (1 ≤ c ∧ c ≤ 12)

/-- A composite's action, where it has one, is a carriage action (R1). -/
def Composite.actionFits (c : Composite) : Bool :=
  match c.action with
  | some a => a.fits
  | none => true

/-- A record order in hand gives a carriage action, or none (R10, R11, R12, R170). -/
def orderFits (o : RecordOrder) : Bool :=
  match lineAction o with
  | some a => a.fits
  | none => true

/-- A composite holds at most four layers, each of exactly W cells (R2); its action is SPACE 1 to 3 or SKIP 1 to 12 and is
absent exactly while OPEN (R1); with no layer it is OPEN, READY or PRINTING and holds no buffer (R15, R67). -/
def Composite.fits (w : Nat) (c : Composite) : Bool :=
  decide (c.layers.length ≤ 4) && c.layers.all (fun l => l.length == w) && c.actionFits &&
    (c.action.isNone == (c.state == .opened)) &&
    (!c.layers.isEmpty || ((c.state != .closed && c.state != .rendering) && c.buffer.isNone))

/-- Every queued composite fits (R1, R2, R15). -/
def State.compositesFit (s : State) : Bool := s.queue.all (Composite.fits s.straps.effective)

/-- Whether a composite of this state and layer count holds a buffer: RENDERING and READY with a layer do, OPEN and CLOSED do
not, PRINTING may (R1, R67). -/
def Composite.bufferFits (c : Composite) : Bool :=
  match c.state with
  | .opened | .closed => c.buffer.isNone
  | .rendering => c.buffer.isSome
  | .ready => c.buffer.isSome == !c.layers.isEmpty
  | .printing => true

/-- Buffer `buf` and the queue's composites name each other (R67). -/
def State.bufferNamed (s : State) (buf : Buf) : Bool :=
  let holder := if buf = .a then s.bufA.holder else s.bufB.holder
  s.queue.all (fun c => (c.buffer == some buf) == (holder == some c.seq)) &&
    (match holder with
      | some q => s.queue.any fun c => c.seq == q
      | none => true)

/-- The buffers and the composites name each other, and each composite holds a buffer when its state says so (R67). -/
def State.buffersFit (s : State) : Bool :=
  s.bufferNamed .a && s.bufferNamed .b && s.queue.all Composite.bufferFits

/-- The render record describes the one RENDERING composite, and there is none without it (R68). -/
def State.renderFits (s : State) : Bool :=
  match s.render with
  | some r =>
    (match s.queue.filter fun c => c.state == .rendering with
      | [c] => c.seq == r.seq && c.buffer == some r.buffer && r.duration == Config.renderPerLayer * c.layers.length
      | _ => false)
  | none => s.queue.all fun c => c.state != .rendering

/-- A composite is PRINTING exactly while the motion record is for it; at s = 0 it fires exactly if it holds a layer, later
only if it does; and it holds its buffer as long as one of its rows is still to be fired (R17, R43, R51, R79). -/
def State.printingFits (s : State) : Bool :=
  match s.motion with
  | some m =>
    if m.feed then !m.firing && s.queue.all fun c => c.state != .printing
    else
      match s.queue with
      | c :: _ =>
        c.state == .printing && (!m.firing || !c.layers.isEmpty) &&
          (m.steps != 0 || m.firing == !c.layers.isEmpty) &&
          (!m.firing || (decide (9 ≤ m.steps) && m.row == .none) || c.buffer.isSome)
      | [] => false
  | none => s.queue.all fun c => c.state != .printing

/-- The row of a motion record is DUE or FIRING only for s from 1 to 9 with firing ON (R51), and its frame timer is stopped
exactly before its end (R57). -/
def Motion.fits (m : Motion) : Bool :=
  decide (9 ≤ m.distance) && decide (m.distance ≤ 1728) && decide (m.steps ≤ m.distance) &&
    (m.row == .none || (m.firing && decide (1 ≤ m.steps) && decide (m.steps ≤ 9))) &&
    ((m.timer == .stopped) == (m.steps != m.distance))

/-- The motion record fits, and the form unit holds its plan, whose landing lies in the form (R31, R36, R43, R49). -/
def State.motionFits (s : State) : Bool :=
  match s.motion, s.plan with
  | some m, some p => m.fits && p.distance == m.distance && decide (p.landing < s.form.length)
  | none, none => true
  | _, _ => false

/-- The installed form image has a length from 1 to 144 and the line position lies in it (R24). -/
def State.formFits (s : State) : Bool :=
  decide (1 ≤ s.form.length) && decide (s.form.length ≤ 144) && decide (s.line < s.form.length)

/-- The code table, the loadable glyphs and the images have their sizes (R67, R82, R84). -/
def State.storesFit (s : State) : Bool :=
  s.codeTable.length == 256 && s.loadable.length == 32 && s.loadable.all (fun g => g.length == 9) &&
    s.bufA.image.length == 9 && s.bufB.image.length == 9

/-- The input buffer holds at most two bytes (R155). -/
def State.inputFits (s : State) : Bool := decide (s.inputBuffer.length ≤ 2)

/-- The fault set and the warning set hold no kind twice (R141, R161). -/
def State.setsFit (s : State) : Bool := decide s.faults.Nodup && decide s.warnings.Nodup

/-- FAULT is low while the fault set is non-empty, and a faulted station holds STEP low, fires nothing and its frame timer
does not run (R142, R144, R57). -/
def State.faultFits (s : State) : Bool :=
  (s.faults.isEmpty || s.faultLow) &&
    (!s.faulted ||
      (s.holdsStep && !s.fireOn &&
        (match s.motion with
          | some m => (match m.timer with | .running _ => false | _ => true)
          | none => true)))

/-- Stops wait exactly while a motion that has taken a step is in progress (R131). -/
def State.stopsFit (s : State) : Bool :=
  !s.stops.any ||
    (match s.motion with
      | some m => decide (1 ≤ m.steps)
      | none => false)

/-- STEP is released only in a motion (R47). -/
def State.driveFits (s : State) : Bool := s.holdsStep || s.motion.isSome

/-- In full reset, STARTING and FORMING the station is empty and at rest; in HELD it holds no motion (R98, R125, R127, R130). -/
def State.modeFits (s : State) : Bool :=
  (!s.rstLow || s.mode == .starting) &&
    (s.mode != .starting || s.faults.isEmpty) &&
    (s.mode.working ||
      (s.queue.isEmpty && s.motion.isNone && s.render.isNone && s.inputBuffer.isEmpty && s.parser.state == .idle &&
        !s.stops.any)) &&
    (s.mode != .held || s.motion.isNone) &&
    (s.startInterval.isNone || (s.mode == .starting && !s.rstLow)) && (s.formingInterval.isNone || s.mode == .forming)

/-- A layer under construction has W cells (R98). -/
def Parser.layerFits (w : Nat) (p : Parser) : Bool :=
  match p.layer with
  | some b => b.cells.length == w
  | none => true

/-- The body of a LOAD GLYPH: ten bytes to come before its index, and after it nine less the rows that came (R95, R102). -/
def Parser.glyphFits (p : Parser) : Bool :=
  match p.glyphStage.index with
  | none => p.remaining == some 10 && p.glyphStage.rows.isEmpty
  | some _ => p.remaining == some (9 - p.glyphStage.rows.length) && decide (p.glyphStage.rows.length ≤ 8)

/-- The parser record: no order exactly in IDLE, else one whose action is in range, a line order in AWAIT PLACE, a load in
AWAIT DRAIN, an order with a body in BODY, and a layer exactly in the body of a PRINT record (R98, R99). -/
def Parser.fits (w : Nat) (p : Parser) : Bool :=
  (match p.state, p.order with
    | .idle, none => p.layer.isNone
    | .awaitPlace, some o => isLineOrder o && p.layer.isNone
    | .awaitDrain, some o => (o == .loadForm || o == .loadGlyph) && p.layer.isNone
    | .body, some o => (isPrint o && p.layer.isSome) || ((o == .loadForm || o == .loadCodes || o == .loadGlyph) && p.layer.isNone)
    | _, _ => false) && p.order.all orderFits && p.layerFits w &&
    (p.state != .body || p.order != some .loadGlyph || p.glyphFits)

/-- The parser record fits the queue: the body of a PRINT record has its OPEN composite, and a waiting line order found none
(R7, R104); while a load that waited for the drain is taken, nothing but an OPEN composite is queued (R73, R96). -/
def State.parserFits (s : State) : Bool :=
  s.parser.fits s.straps.effective &&
    (match s.parser.state, s.parser.order with
      | .awaitPlace, _ => !s.hasOpen
      | .body, some o =>
        (!isPrint o || s.hasOpen) &&
          ((o != .loadForm && o != .loadGlyph) || s.queue.all (fun c => c.state == .opened)) &&
          (o != .loadForm || s.motion.isNone)
      | _, _ => true)

/-- The read index of a sense read is at most 8 (R166). -/
def State.senseFits (s : State) : Bool :=
  match s.senseRead with
  | some r => decide (r.index ≤ 8)
  | none => true

/-- The straps are as R123 clamps them: W from 1 to 32, and the columns within 1 to 192. -/
def State.strapsFit (s : State) : Bool :=
  decide (1 ≤ s.straps.fcol) && decide (s.straps.fcol ≤ 192) && decide (8 ≤ s.straps.width) && decide (s.straps.width ≤ 32)

/-- The conjunction: a good state of a station. -/
def State.sound (s : State) : Bool :=
  s.queueShape && s.sequencesRun && s.compositesFit && s.buffersFit && s.renderFits && s.printingFits && s.motionFits &&
    s.formFits && s.storesFit && s.inputFits && s.setsFit && s.faultFits && s.stopsFit && s.driveFits && s.modeFits &&
    s.parserFits && s.senseFits && s.strapsFit

/-! ## Words the statements use -/

/-- Nothing is due and the parser is IDLE with an empty input buffer at a station that takes record strobes: the next record
byte begins a record or is stray (R99, R101, R154). -/
def State.takesOrders (s : State) : Bool :=
  s.quiet && s.answers && s.mode.working && s.inputBuffer.isEmpty && s.parser.state == .idle

/-- Nothing is due, and the parser is in BODY of `o` with an empty input buffer at a station that takes record strobes: the
next byte is a body byte, or an order byte that ends the record short (R99, R116). -/
def State.takesBody (s : State) (o : RecordOrder) : Bool :=
  s.quiet && s.answers && s.mode.working && s.inputBuffer.isEmpty && s.parser.state == .body && s.parser.order == some o

/-- The state after a write strobe that is taken, before its byte acts: the strobe is over, the data lines are released, and no
sense read is in progress (R154, R166, R169). -/
def State.strobed (s : State) : State := { s with strobe := .none, pd := 0xFF, senseRead := none }

/-- The parser record of an IDLE parser that keeps its data-check mode (R98, R120). -/
def State.idleParser (s : State) : Parser := { checkMode := s.parser.checkMode }

/-- The record order a command strobes (R170). -/
def recordOrderOf : Instr → Option RecordOrder
  | .printSpace k => some (.printSpace k)
  | .printSkip c => some (.printSkip c)
  | .moveSpace k => some (.moveSpace k)
  | .moveSkip c => some (.moveSkip c)
  | .loadForm => some .loadForm
  | .loadCodes => some .loadCodes
  | .loadGlyph => some .loadGlyph
  | .checkBlank => some .checkBlank
  | .checkBlock => some .checkBlock
  | _ => none

/-- The byte that a record strobe brings, with its order mark (R100, R154). -/
def portByteOf : Instr → Option PortByte
  | .unknownOrder v => some { value := v, order := true }
  | .dataByte v => some { value := v, order := false }
  | i => (recordOrderOf i).map fun o => { value := encodeRecordOrder o, order := true }

/-- The commands that begin or end a strobe on the port (R154, R165, R166). -/
def strobesPort : Instr → Bool
  | .hold | .discard | .resume | .sense | .arbitrationRead _ | .senseRecordRead | .pstrFall _ => true
  | i => (portByteOf i).isSome

/-- The parser takes a byte: an order byte or a data byte (R99, R100). -/
def State.takeByte (b : PortByte) (s : State) : State := if b.order then s.takeOrder b.value else s.takeData b.value

/-- The state after an order byte is taken in IDLE: a record order begins its record, an unknown order raises ORDER ERROR (R101,
R117). -/
def State.begins (o : Option RecordOrder) (s : State) : State :=
  match o with
  | some o => s.startRecord o
  | none => { s with warnings := addOnce .orderError s.warnings }

/-- A composite after a layer with its mark is offered to it: appended with fewer than four layers, else dropped; `short` says that
the record was ended short (R3, R13, R14, R89, R90). -/
def Composite.struck (l : Layer) (mark : Mark) (short : Bool) (c : Composite) : Composite :=
  if c.layers.length < 4 then
    { c with
      layers := c.layers ++ [l]
      flags := { c.flags with blocked := c.flags.blocked || mark == .blocking, short := c.flags.short || short } }
  else { c with flags := { c.flags with layerOverflow := true, short := c.flags.short || short } }

/-- The warning set after that offer: LAYER OVERFLOW as the flag is set, or DATA CHECK BLANKED with an appended layer; then SHORT
RECORD as the flag is set (R3, R13, R14, R89). -/
def Composite.struckWarnings (mark : Mark) (short : Bool) (c : Composite) (ws : List Warning) : List Warning :=
  let ws :=
    if c.layers.length < 4 then (if mark = .blanked then addOnce .dataCheckBlanked ws else ws)
    else if c.flags.layerOverflow then ws
    else addOnce .layerOverflow ws
  if short = true ∧ c.flags.short = false then addOnce .shortRecord ws else ws

/-- A composite with a layer as the end of a PRINT record leaves it: PRINT SPACE 0 leaves it OPEN, any other closes it with the
record's action (R10, R11, R15). -/
def Composite.afterPrint (o : RecordOrder) (c : Composite) : Composite :=
  match o with
  | .printSpace 0 => c
  | .printSpace k => { c with action := some (.space k), state := .closed }
  | .printSkip ch => { c with action := some (.skip ch), state := .closed }
  | _ => c

/-- The motion record of a station that ceases to be faulted at the moment `now`: the 100 us of a DUE row and a frame timer that held
still start again (R53, R57). -/
def Motion.resumed (now : Micros) (m : Motion) : Motion :=
  { m with
    row :=
      match m.row with
      | .due _ => .due now
      | .firing t => .firing t
      | .none => .none
    timer :=
      match m.timer with
      | .still _ => .running now
      | .running t => .running t
      | .stopped => .stopped
      | .expired => .expired }

/-- The motion record of a station that becomes faulted at the moment `now`: a running pulse has ended and its row is due again, and
the frame timer holds still (R53, R57). -/
def Motion.interrupted (now : Micros) (m : Motion) : Motion :=
  { m with
    row :=
      match m.row with
      | .firing _ => .due now
      | .due t => .due t
      | .none => .none
    timer :=
      match m.timer with
      | .running t => .still (now - t)
      | .still e => .still e
      | .stopped => .stopped
      | .expired => .expired }

/-- The state of a station as it records the fault `f`: the fault set, FAULT and STEP held low, the motion interrupted (R141, R142,
R144). -/
def State.stoppedBy (s : State) (f : FaultKind) : State :=
  { s with
    faults := if s.faults.contains f then s.faults else s.faults ++ [f]
    faultLow := true
    stepDrive := .held
    motion := s.motion.map (Motion.interrupted s.clock) }

/-- The state after a motion `m` with plan `p` is concluded (R39, R56, R58): the plan is applied, the composite has left, the
record and the plan are gone, and the pending stops have applied. -/
def State.concluded (s : State) (m : Motion) (p : Plan) : State :=
  { s with
    line := p.landing
    formCount := s.formCount + BitVec.ofNat 16 p.increase
    overflow := p.overflow
    queue := if m.feed then s.queue else s.queue.tail
    motion := none
    plan := none
    stepDrive := .held
    frameDelay := none
    stops := {}
    mode :=
      if s.stops.kstop then .stopped else if s.stops.hold || s.stops.discard then .held else s.mode
    faults := if s.stops.paper then addOnce .paperOut s.faults else s.faults
    faultLow := s.stops.paper }

end Sys2Proof.Machine
end

