-- ==== Sys2Proof/Certificates/Slice0/Obligations.lean ====
section
/-! DEFINITION. The statements for the provers. Each names in its docstring the rules of spec/ it formalises. A state with
nothing due (`quiet`) is one in which the steps of the present moment have been taken (log 5). -/

open Sys2Proof Sys2Proof.Machine

/-! ## The machine as a whole -/

/-- A step takes the command at the front of the queue and runs it on the state with the queue's rest; with none waiting it
takes the steps due at this moment and the rise of a status read in progress, and idles where neither is there. What a step with none
waiting does is the model's choice (logs 5 and 17). -/
def Obligations.StepRunsTheFrontCommand : Prop :=
  (∀ (c : Instr) (rest : List Instr) (s : State), s.pending = c :: rest → step s = exec c { s with pending := rest }) ∧
    (∀ s : State, s.pending = [] → (s.senseRead ≠ none ∨ ∀ b, s.strobe ≠ .read b) → step s = .next s.catchUp) ∧
    (∀ (s : State) (b : Bool), s.pending = [] → s.senseRead = none → s.strobe = .read b →
      step s = .next { s.catchUp with strobe := .none, pd := 0xFF }) ∧
    ∀ s : State, s.pending = [] → s.quiet = true → (s.senseRead ≠ none ∨ ∀ b, s.strobe ≠ .read b) → step s = .next s

/-- Every command completes in every state, and leaves the queue of commands as it is. That a command completes where its event
cannot come, or its level is accepted already, is the model's choice (log 18), as are an operand out of range (log 22), a read row
outside its index (log 17), and FULL_RESET keeping the waiting commands (log 23). -/
def Obligations.EveryCommandCompletes : Prop :=
  ∀ (c : Instr) (s : State), ∃ t, exec c s = .next t ∧ t.pending = s.pending

/-- Taking the steps due at a moment leaves nothing due, and a command that is an event of its own acts on the state in which
every step due before it has been taken (R8, R44, R69, R112 take each at once; that they are taken before the next command is the
model's choice, log 5). Among them is a change that has no row, the release of a pressed key (R140); when it falls is the model's
choice (log 11). -/
def Obligations.EventsFollowTheStepsDue : Prop :=
  (∀ s : State, s.catchUp.quiet = true) ∧
    (∀ (c : Instr) (s : State), c ≠ .placeGrant → c ≠ .drainEnd → c ≠ .renderStart → c ≠ .motionStart →
      exec c s = exec c s.catchUp) ∧
    ∀ s : State, ∃ t, exec .kstart s = .next t ∧ t.catchUp.inputs.kstart = false

/-- Full reset leaves what R23, R26, R30, R66, R81, R83, R84, R121, R141, R155 and R161 state. -/
def Obligations.ResetLeavesTheStatedValues : Prop :=
  let s := State.reset
  s.mode = .starting ∧ s.faults = [] ∧ s.stops = {} ∧ s.warnings = [.stationStarted] ∧ s.senseRead = none ∧
    s.queue = [] ∧ s.counter = 0 ∧ s.inputBuffer = [] ∧ s.parser = {} ∧ s.parser.checkMode = .blank ∧
    s.form.length = 66 ∧ s.form.pitch = .twelve ∧
    (∀ l c, l < 66 → 1 ≤ c → c ≤ 12 → s.form.carries l c = decide (l = 0 ∧ c = 1)) ∧
    s.line = 0 ∧ s.formCount = 0 ∧ s.overflow = false ∧ s.plan = none ∧
    (∀ v : Byte, translate s.codeTable v =
      if 0x20 ≤ v.toNat ∧ v.toNat ≤ 0x7E then .glyph (BitVec.ofNat 7 (v.toNat - 0x20)) else .unprintable) ∧
    s.loadable = List.replicate 32 (List.replicate 9 0) ∧
    s.bufA.holder = none ∧ s.bufB.holder = none ∧ s.bufA.image = blankImage ∧ s.bufB.image = blankImage ∧
    s.render = none ∧ s.motion = none ∧ s.stepRecord = none ∧
    s.holdsJoin = true ∧ s.holdsStep = true ∧ s.holdsFrame = true ∧ s.holdsPrdy = true ∧ s.holdsFault = false ∧
    s.fireOn = false ∧ s.pd = 0xFF

/-- FULL_RESET in any state: the station holds JOIN, STEP, FRAME and PRDY low, releases FAULT and the data lines, holds the
head off, takes no strobe (R125), and every block is at its reset value. In the last clause the straps' values (log 1), and that the
level of PINIT, the external latches, the clock and the waiting commands are kept (logs 19 and 23), are the model's choice. -/
def Obligations.FullResetFromAnyState : Prop :=
  ∀ s : State, ∃ t, exec .fullReset s = .next t ∧
    t.holdsJoin = true ∧ t.holdsStep = true ∧ t.holdsFrame = true ∧ t.holdsPrdy = true ∧ t.holdsFault = false ∧
    t.pd = 0xFF ∧ t.fireOn = false ∧ t.answers = false ∧
    t = { State.reset with
          clock := t.clock, faultLow := t.faultLow, pinitLowSince := s.pinitLowSince, headLatch := s.headLatch,
          pending := s.pending }

/-! ## Invariants -/

/-- The reset state is sound. -/
def Obligations.SoundAtReset : Prop := State.reset.sound = true

/-- Every step from a sound state gives a sound state: the queue, its numbering, layers and buffers, the render record, the
motion record and its plan, the form and the position, the fault, warning and stop sets, the lines and the parser are as R2,
R4, R5, R17, R24, R31, R43, R51, R67, R68, R98, R130, R131, R141, R142, R144, R155 and R161 state. -/
def Obligations.StepsKeepSoundness : Prop :=
  ∀ s t : State, s.sound = true → step s = .next t → t.sound = true

/-- No kind is held twice in the fault set or in the warning set (R141, R161). -/
def Obligations.NoKindIsHeldTwice : Prop :=
  ∀ s t : State, s.faults.Nodup → s.warnings.Nodup → step s = .next t → t.faults.Nodup ∧ t.warnings.Nodup

/-- FAULT is low as long as the station's own fault set is non-empty (R142, R143). -/
def Obligations.OwnFaultHoldsFaultLow : Prop :=
  ∀ s t : State, (s.faults = [] ∨ s.faultLow = true) → step s = .next t → (t.faults = [] ∨ t.faultLow = true)

/-- The code table keeps its 256 entries, the glyph store its 32 loadable glyphs, each image buffer its nine rows; and the input
buffer never holds more than two bytes (R67, R82, R84, R155). -/
def Obligations.StoresKeepTheirSizes : Prop :=
  (∀ s t : State,
    s.codeTable.length = 256 → s.loadable.length = 32 → s.bufA.image.length = 9 → s.bufB.image.length = 9 →
    step s = .next t →
    t.codeTable.length = 256 ∧ t.loadable.length = 32 ∧ t.bufA.image.length = 9 ∧ t.bufB.image.length = 9) ∧
    ∀ s t : State, s.inputBuffer.length ≤ 2 → step s = .next t → t.inputBuffer.length ≤ 2

/-- Only a full reset and its release change the straps (R122). -/
def Obligations.StrapsStayAsSampled : Prop :=
  ∀ (c : Instr) (s t : State), c ≠ .fullReset → (∀ pins, c ≠ .resetRelease pins) → exec c s = .next t →
    t.straps = s.straps

/-! ## Record orders -/

/-- A record order byte and a control order byte are read by R170's tables, an order's byte reads back as the order, the values R170
lists as unknown are those that are no record order and no control order, and an order byte of 0x01 to 0x04, whatever row strobes it,
is that control order (R158; that a row may strobe it out of its range is the model's choice, log 22). -/
def Obligations.OrderBytesReadAsTabled : Prop :=
  (∀ k, k ≤ 3 → decodeRecordOrder (BitVec.ofNat 8 (0x10 + k)) = some (.printSpace k)) ∧
    (∀ c, 1 ≤ c → c ≤ 12 → decodeRecordOrder (BitVec.ofNat 8 (0x20 + c)) = some (.printSkip c)) ∧
    (∀ k, 1 ≤ k → k ≤ 3 → decodeRecordOrder (BitVec.ofNat 8 (0x30 + k)) = some (.moveSpace k)) ∧
    (∀ c, 1 ≤ c → c ≤ 12 → decodeRecordOrder (BitVec.ofNat 8 (0x40 + c)) = some (.moveSkip c)) ∧
    decodeRecordOrder 0x50 = some .loadForm ∧ decodeRecordOrder 0x51 = some .loadCodes ∧
    decodeRecordOrder 0x52 = some .loadGlyph ∧ decodeRecordOrder 0x58 = some .checkBlank ∧
    decodeRecordOrder 0x59 = some .checkBlock ∧
    (∀ v o, decodeRecordOrder v = some o → encodeRecordOrder o = v) ∧
    decodeControlOrder 0x01 = some .hold ∧ decodeControlOrder 0x02 = some .discard ∧
    decodeControlOrder 0x03 = some .resume ∧ decodeControlOrder 0x04 = some .sense ∧
    (∀ v c, decodeControlOrder v = some c → encodeControlOrder c = v ∧ decodeRecordOrder v = none) ∧
    (∀ v : Byte, unknownOrderValue v = true ↔ decodeRecordOrder v = none ∧ decodeControlOrder v = none) ∧
    ∀ s : State, exec (.unknownOrder 0x01) s = exec .hold s ∧ exec (.unknownOrder 0x02) s = exec .discard s ∧
      exec (.unknownOrder 0x03) s = exec .resume s ∧ exec (.unknownOrder 0x04) s = exec .sense s

/-- PRINT SPACE k and PRINT SKIP c taken in IDLE: the record joins the OPEN composite, or a composite is created for it with
the counter's sequence, or the parser waits for a place (R1, R5, R7, R10, R11, R101). -/
def Obligations.PrintOrderTakesItsPlace : Prop :=
  ∀ (s : State) (i : Instr) (o : RecordOrder),
    ((∃ k, k ≤ 3 ∧ i = .printSpace k ∧ o = .printSpace k) ∨
      (∃ c, 1 ≤ c ∧ c ≤ 12 ∧ i = .printSkip c ∧ o = .printSkip c)) →
    s.takesOrders = true →
    let w := min s.straps.width (193 - s.straps.fcol)
    let body : Parser :=
      { state := .body, order := some o, layer := some { cells := List.replicate w none }, checkMode := s.parser.checkMode }
    (s.hasOpen = true → exec i s = .next { s.strobed with parser := body }) ∧
      (s.hasOpen = false → s.queue.length < 4 →
        exec i s = .next
          { s.strobed with
            parser := body
            queue := s.queue ++
              [{ seq := s.counter, state := .opened, layers := [], action := none, buffer := none, flags := {} }]
            counter := s.counter + 1 }) ∧
      (s.hasOpen = false → 4 ≤ s.queue.length →
        exec i s = .next
          { s.strobed with
            parser := { state := .awaitPlace, order := some o, checkMode := s.parser.checkMode } })

/-- MOVE SPACE k and MOVE SKIP c taken in IDLE: the OPEN composite closes, or a composite is created and closed with zero
layers, or the parser waits for a place (R7, R12, R15, R106). -/
def Obligations.MoveOrderClosesTheLine : Prop :=
  ∀ (s : State) (i : Instr) (o : RecordOrder) (a : Action),
    ((∃ k, 1 ≤ k ∧ k ≤ 3 ∧ i = .moveSpace k ∧ o = .moveSpace k ∧ a = .space k) ∨
      (∃ c, 1 ≤ c ∧ c ≤ 12 ∧ i = .moveSkip c ∧ o = .moveSkip c ∧ a = .skip c)) →
    s.takesOrders = true →
    (∀ q c, s.queue = q ++ [c] → (∀ x ∈ q, x.state ≠ .opened) → c.state = .opened →
      exec i s = .next
        { s.strobed with
          parser := s.idleParser
          queue := q ++ [{ c with action := some a, state := if c.layers = [] then .ready else .closed }] }) ∧
      (s.hasOpen = false → s.queue.length < 4 →
        exec i s = .next
          { s.strobed with
            parser := s.idleParser
            queue := s.queue ++ [{ seq := s.counter, state := .ready, layers := [], action := some a }]
            counter := s.counter + 1 }) ∧
      (s.hasOpen = false → 4 ≤ s.queue.length →
        exec i s = .next
          { s.strobed with
            parser := { state := .awaitPlace, order := some o, checkMode := s.parser.checkMode } })

/-- LOAD FORM and LOAD GLYPH taken in IDLE enter BODY at rest and AWAIT DRAIN otherwise; LOAD CODES enters BODY at once (R101,
R108, R109, R110, R111, R112). At rest means: no composite but an OPEN one, and no motion. -/
def Obligations.LoadOrdersJudgeTheDrain : Prop :=
  ∀ s : State, s.takesOrders = true →
    let rest : Prop := (s.queue = [] ∨ ∃ c, s.queue = [c] ∧ c.state = .opened) ∧ s.motion = none
    let inBody (o : RecordOrder) (n : Option Nat) : State :=
      { s.strobed with
        parser := { state := .body, order := some o, remaining := n, checkMode := s.parser.checkMode } }
    let waits (o : RecordOrder) : State :=
      { s.strobed with parser := { state := .awaitDrain, order := some o, checkMode := s.parser.checkMode } }
    (rest → exec .loadForm s = .next (inBody .loadForm none) ∧ exec .loadGlyph s = .next (inBody .loadGlyph (some 10))) ∧
      (¬rest → exec .loadForm s = .next (waits .loadForm) ∧ exec .loadGlyph s = .next (waits .loadGlyph)) ∧
      exec .loadCodes s = .next (inBody .loadCodes none)

/-- CHECK BLANK and CHECK BLOCK taken in IDLE set the data-check mode and change nothing else of the station's work (R87,
R107). -/
def Obligations.CheckOrdersSetTheMode : Prop :=
  ∀ s : State, s.takesOrders = true →
    exec .checkBlank s = .next { s.strobed with parser := { s.parser with checkMode := .blank } } ∧
      exec .checkBlock s = .next { s.strobed with parser := { s.parser with checkMode := .block } }

/-- An order byte of a record order or an unknown order: in IDLE it begins its record, or raises ORDER ERROR alone; in BODY or AWAIT
DRAIN it first ends the record short. A load is dropped with SHORT RECORD and LOAD REJECTED; a PRINT record's layer is completed with
BLANK cells and offered, appended or dropped as a fifth, its composite flagged SHORT and closed by its action; then the order byte
acts as in IDLE (R13, R14, R101, R116, R117). -/
def Obligations.OrderByteEndsTheRecordShort : Prop :=
  ∀ (s : State) (i : Instr), i.wf = true → ((recordOrderOf i).isSome = true ∨ ∃ v, i = .unknownOrder v) →
    (s.takesOrders = true → exec i s = .next (s.strobed.begins (recordOrderOf i))) ∧
      (∀ o, (o = .loadForm ∨ o = .loadCodes ∨ o = .loadGlyph) →
        (s.takesBody o = true ∨
          (s.quiet = true ∧ s.answers = true ∧ s.mode.working = true ∧ s.inputBuffer = [] ∧
            s.parser.state = .awaitDrain ∧ s.parser.order = some o)) →
        let dropped : State :=
          { s.strobed with
            parser := s.idleParser
            warnings := addOnce .loadRejected (addOnce .shortRecord s.warnings) }
        exec i s = .next (dropped.begins (recordOrderOf i))) ∧
      ∀ o q c b, isPrint o = true → s.takesBody o = true → s.parser.layer = some b → s.queue = q ++ [c] →
        (∀ x ∈ q, x.state ≠ .opened) → c.state = .opened →
        let ended : State :=
          { s.strobed with
            parser := s.idleParser
            queue := q ++ [(c.struck (b.cells.map fun x => x.getD .blank) b.mark true).afterPrint o]
            warnings := c.struckWarnings b.mark true s.warnings }
        exec i s = .next (ended.begins (recordOrderOf i))

/-- A data byte taken in IDLE is stray: it is ignored and raises ORDER ERROR, whether it is taken at its strobe or from the input
buffer (R118). -/
def Obligations.StrayByteIsIgnored : Prop :=
  (∀ (s : State) (v : Byte), s.takesOrders = true →
    exec (.dataByte v) s = .next { s.strobed with warnings := addOnce .orderError s.warnings }) ∧
    ∀ (s : State) (v : Byte), s.parser.state = .idle →
      s.takeData v = { s with warnings := addOnce .orderError s.warnings }

/-- A data byte of a PRINT body, not its last: in the station's columns it becomes its cell, outside them it is passed over,
and the first beyond column 192 raises LONG RECORD (R85, R88, R102, R103, R105). -/
def Obligations.PrintByteFallsInItsColumn : Prop :=
  ∀ (s : State) (o : RecordOrder) (v : Byte) (b : LayerBuild) (n : Nat),
    isPrint o = true → s.takesBody o = true → s.parser.layer = some b → s.parser.remaining = some (n + 2) →
    s.straps.fcol ≤ 192 → 1 ≤ s.straps.width →
    let k := s.parser.column
    let w := min s.straps.width (193 - s.straps.fcol)
    let p : Parser := { s.parser with column := k + 1, remaining := some (n + 1) }
    let x := translate s.codeTable v
    (s.straps.fcol ≤ k → k ≤ s.straps.fcol + w - 1 →
      exec (.dataByte v) s = .next
        { s.strobed with
          parser :=
            { p with
              layer := some
                { cells := b.cells.set (k - s.straps.fcol) (some x)
                  mark :=
                    if x = .unprintable ∧ b.mark = .none then
                      (if s.parser.checkMode = .blank then .blanked else .blocking)
                    else b.mark } } }) ∧
      ((k < s.straps.fcol ∨ s.straps.fcol + w - 1 < k) → k ≤ 192 → exec (.dataByte v) s = .next { s.strobed with parser := p }) ∧
      (192 < k → exec (.dataByte v) s = .next
        { s.strobed with
          parser := { p with longNote := true }
          warnings := if s.parser.longNote then s.warnings else addOnce .longRecord s.warnings })

/-- A whole PRINT record of N data bytes, struck onto an OPEN composite with fewer than four layers or onto one created with a place,
appends exactly one layer: cell i is the translation of the byte of column FCOL + i, or BLANK beyond the count. UNPRINTABLE cells raise
DATA CHECK BLANKED or flag the composite BLOCKED by the data-check mode, and a count above 192 raises LONG RECORD. PRINT SPACE 0 leaves
the composite OPEN; PRINT SPACE 1 to 3 and PRINT SKIP close it with their action (R2, R10, R11, R15, R85, R86, R88, R89, R90, R102 to
R105). -/
def Obligations.PrintRecordBuildsItsLayer : Prop :=
  ∀ (s : State) (i : Instr) (o : RecordOrder) (q : List Composite) (c : Composite) (n : BitVec 7) (bytes : List Byte),
    ((∃ k, k ≤ 3 ∧ i = .printSpace k ∧ o = .printSpace k) ∨
      (∃ ch, 1 ≤ ch ∧ ch ≤ 12 ∧ i = .printSkip ch ∧ o = .printSkip ch)) →
    s.takesOrders = true → s.pending = [] →
    ((s.queue = q ++ [c] ∧ (∀ x ∈ q, x.state ≠ .opened) ∧ c.state = .opened ∧ c.layers.length < 4 ∧ n = s.counter) ∨
      (s.queue = q ∧ s.hasOpen = false ∧ q.length < 4 ∧ n = s.counter + 1 ∧
        c = { seq := s.counter, state := .opened, layers := [], action := none, buffer := none, flags := {} })) →
    bytes.length ≤ 255 → 1 ≤ s.straps.fcol → s.straps.fcol ≤ 192 → 1 ≤ s.straps.width →
    let w := min s.straps.width (193 - s.straps.fcol)
    let layer : Layer := (List.range w).map fun i =>
      if s.straps.fcol + i ≤ bytes.length then translate s.codeTable (bytes.getD (s.straps.fcol + i - 1) 0) else .blank
    let dirty := layer.contains .unprintable
    let struck : Composite :=
      { c with
        layers := c.layers ++ [layer]
        flags := { c.flags with blocked := c.flags.blocked || (dirty && s.parser.checkMode == .block) } }
    Host.Core.run core (bytes.length + 2)
        { s with pending := i :: .dataByte (BitVec.ofNat 8 bytes.length) :: bytes.map .dataByte } =
      .next
        { s.strobed with
          parser := s.idleParser
          queue := q ++ [struck.afterPrint o]
          counter := n
          warnings :=
            let ws := if 192 < bytes.length then addOnce .longRecord s.warnings else s.warnings
            if dirty && s.parser.checkMode == .blank then addOnce .dataCheckBlanked ws else ws }

/-- A layer offered to a composite that holds four is dropped: LAYER OVERFLOW is flagged, and raised as the flag is set. The
record's action closes the composite all the same. Here the record ends at a count byte of 0 (R3, R11, R13, R102). -/
def Obligations.FifthLayerIsDropped : Prop :=
  ∀ (s : State) (q : List Composite) (c : Composite) (o : RecordOrder) (b : LayerBuild),
    isPrint o = true → s.takesBody o = true → s.parser.layer = some b → s.parser.remaining = none →
    s.queue = q ++ [c] → (∀ x ∈ q, x.state ≠ .opened) → c.state = .opened → 4 ≤ c.layers.length →
    let kept : Composite := { c with flags := { c.flags with layerOverflow := true } }
    exec (.dataByte 0) s = .next
      { s.strobed with
        parser := s.idleParser
        queue := q ++ [kept.afterPrint o]
        warnings := if c.flags.layerOverflow then s.warnings else addOnce .layerOverflow s.warnings }

/-- A whole LOAD FORM record taken at rest installs its image at the top of the form when the pitch code is 6 or 8 and the
length from 1 to 144, and is rejected whole otherwise; channel c of a line is bit c - 1 of the first byte, or bit c - 9 of the
second (R27, R28, R29, R102, R108). -/
def Obligations.FormLoadInstallsOrIsRejected : Prop :=
  (∀ (a b : Byte) (c : Nat), 1 ≤ c → c ≤ 12 →
    (channelSet a b).getLsbD (c - 1) = if c ≤ 8 then a.getLsbD (c - 1) else b.getLsbD (c - 9)) ∧
  ∀ (s : State) (code : Byte) (pairs : List (Byte × Byte)),
    s.takesOrders = true → s.pending = [] → s.drained = true → pairs.length ≤ 255 →
    Host.Core.run core (2 * pairs.length + 3)
        { s with
          pending := .loadForm :: .dataByte code :: .dataByte (BitVec.ofNat 8 pairs.length) ::
            pairs.flatMap fun p => [.dataByte p.1, .dataByte p.2] } =
      .next
        (if (code = 6 ∨ code = 8) ∧ 1 ≤ pairs.length ∧ pairs.length ≤ 144 then
          { s.strobed with
            parser := s.idleParser
            form :=
              { pitch := if code = 6 then .twelve else .nine
                length := pairs.length
                channels := pairs.map fun p => channelSet p.1 p.2 }
            line := 0
            formCount := 0
            overflow := false }
        else { s.strobed with parser := s.idleParser, warnings := addOnce .loadRejected s.warnings })

/-- A whole LOAD CODES record replaces the entries for codes f to f + c - 1 when f + c is at most 256, and is rejected whole
otherwise; an entry byte is a glyph index up to 0x7F, BLANK at 0xFE, UNPRINTABLE elsewhere (R92, R93, R102, R109). -/
def Obligations.CodeLoadReplacesItsRun : Prop :=
  (∀ v : Byte, stageEntry v =
    if v.toNat ≤ 0x7F then .glyph (BitVec.ofNat 7 v.toNat) else if v = 0xFE then .blank else .unprintable) ∧
  ∀ (s : State) (f : Byte) (entries : List Byte),
    s.takesOrders = true → s.pending = [] → 1 ≤ entries.length → entries.length ≤ 256 →
    Host.Core.run core (entries.length + 3)
        { s with
          pending := .loadCodes :: .dataByte f :: .dataByte (BitVec.ofNat 8 entries.length) :: entries.map .dataByte } =
      .next
        (if f.toNat + entries.length ≤ 256 then
          { s.strobed with
            parser := s.idleParser
            codeTable := s.codeTable.mapIdx fun i old =>
              if f.toNat ≤ i ∧ i < f.toNat + entries.length then stageEntry (entries.getD (i - f.toNat) 0) else old }
        else { s.strobed with parser := s.idleParser, warnings := addOnce .loadRejected s.warnings })

/-- A whole LOAD GLYPH record taken at rest replaces the nine rows of a glyph from 96 to 127, and is rejected for any other
index after its ten body bytes (R95, R96, R102, R110). -/
def Obligations.GlyphLoadInstallsOrIsRejected : Prop :=
  ∀ (s : State) (g : Byte) (rows : List Byte),
    s.takesOrders = true → s.pending = [] → s.drained = true → rows.length = 9 →
    Host.Core.run core 11 { s with pending := .loadGlyph :: .dataByte g :: rows.map .dataByte } =
      .next
        (if 96 ≤ g.toNat ∧ g.toNat ≤ 127 then
          { s.strobed with parser := s.idleParser, loadable := s.loadable.set (g.toNat - 96) rows }
        else { s.strobed with parser := s.idleParser, warnings := addOnce .loadRejected s.warnings })

/-- A record byte, an order byte or a data byte alike, strobed to a station in STOPPED, ONLINE or HELD: it is taken at once from an
empty buffer in a state that takes it; it waits in the buffer in AWAIT PLACE, and in AWAIT DRAIN where it is a data byte or stands
behind one; and strobed into a full buffer it is lost, INPUT OVERRUN is recorded, and the two bytes stay. In FORMING it is
disregarded, and a station that takes no strobe only sees the strobe end (R99, R114, R115, R127, R154, R155, R156). -/
def Obligations.RecordByteIsTakenWaitsOrIsLost : Prop :=
  ∀ (s : State) (i : Instr) (b : PortByte), i.wf = true → portByteOf i = some b → s.quiet = true →
    (s.answers = true → s.mode.working = true →
      (s.inputBuffer = [] → s.parser.takes b = true → exec i s = .next (s.strobed.takeByte b)) ∧
        (s.parser.state = .awaitPlace → s.inputBuffer.length < 2 →
          ∃ t, exec i s = .next t ∧ t = { s.strobed with inputBuffer := s.inputBuffer ++ [b] } ∧
            (s.inputBuffer ≠ [] → t.holdsPrdy = true)) ∧
        (s.parser.state = .awaitDrain → b.order = false → s.inputBuffer = [] →
          exec i s = .next { s.strobed with inputBuffer := [b] }) ∧
        (∀ x : PortByte, s.parser.state = .awaitDrain → x.order = false → s.inputBuffer = [x] →
          ∃ t, exec i s = .next t ∧ t = { s.strobed with inputBuffer := [x, b] } ∧ t.holdsPrdy = true) ∧
        (s.inputBuffer.length = 2 →
          ∃ t, exec i s = .next t ∧ t = s.strobed.stoppedBy .inputOverrun ∧ t.inputBuffer = s.inputBuffer ∧
            t.parser = s.parser ∧ t.queue = s.queue ∧ t.holdsFault = true ∧ t.faulted = true ∧ t.holdsPrdy = true ∧
            t.fireOn = false)) ∧
      (s.answers = true → s.mode = .forming → exec i s = .next s.strobed) ∧
      (s.answers = false → exec i s = .next { s with strobe := .none, pd := 0xFF })

/-- PLACE_GRANT: with a place free, a waiting PRINT gets its OPEN composite and a waiting MOVE its closed one; then the parser takes the
bytes that wait, one or two, each in the state the byte before it left (R7, R8, R12, R99, R115). -/
def Obligations.PlaceGrantServesTheWaitingOrder : Prop :=
  ∀ (s : State) (o : RecordOrder),
    s.parser.state = .awaitPlace → s.parser.order = some o → s.hasOpen = false → s.queue.length < 4 →
    let w := min s.straps.width (193 - s.straps.fcol)
    let body : Parser :=
      { state := .body, order := some o, layer := some { cells := List.replicate w none }, checkMode := s.parser.checkMode }
    let opens (granted : State) : Prop :=
      isPrint o = true ∧
        granted = { s with
          queue := s.queue ++ [{ seq := s.counter, state := .opened, layers := [] }]
          counter := s.counter + 1
          parser := body
          inputBuffer := [] }
    let closes (granted : State) : Prop :=
      ∃ a, ((∃ k, o = .moveSpace k ∧ a = .space k) ∨ (∃ c, o = .moveSkip c ∧ a = .skip c)) ∧
        granted = { s with
          queue := s.queue ++ [{ seq := s.counter, state := .ready, layers := [], action := some a }]
          counter := s.counter + 1
          parser := s.idleParser
          inputBuffer := [] }
    ∀ granted : State, (opens granted ∨ closes granted) →
      (s.inputBuffer = [] → exec .placeGrant s = .next granted) ∧
        (∀ x, s.inputBuffer = [x] → exec .placeGrant s = .next (granted.takeByte x)) ∧
        (∀ x y, s.inputBuffer = [x, y] →
          let one : State := State.takeByte x { granted with inputBuffer := [y] }
          exec .placeGrant s = .next (if one.parser.takes y then State.takeByte y { one with inputBuffer := [] } else one)) ∧
        ∀ v : Byte, isPrint o = true → v ≠ 0 →
          granted.takeByte { value := v, order := false } = { granted with parser := { body with remaining := some v.toNat } }

/-- DRAIN_END: once the queue and the paper are at rest, a waiting load enters BODY and takes the bytes that wait, one or two: a LOAD
FORM the pitch code first, a LOAD GLYPH the index (R99, R102, R112). -/
def Obligations.DrainEndEntersTheBody : Prop :=
  ∀ (s : State) (o : RecordOrder), s.parser.state = .awaitDrain → s.drained = true → (o = .loadForm ∨ o = .loadGlyph) →
    s.parser.order = some o →
    let body : Parser :=
      { state := .body
        order := some o
        remaining := if o = .loadGlyph then some 10 else none
        checkMode := s.parser.checkMode }
    let entered : State := { s with parser := body, inputBuffer := [] }
    (s.inputBuffer = [] → exec .drainEnd s = .next entered) ∧
      (∀ x, s.inputBuffer = [x] → exec .drainEnd s = .next (entered.takeByte x)) ∧
      (∀ x y, s.inputBuffer = [x, y] →
        let one : State := State.takeByte x { entered with inputBuffer := [y] }
        exec .drainEnd s = .next (if one.parser.takes y then State.takeByte y { one with inputBuffer := [] } else one)) ∧
      (∀ v : Byte, o = .loadForm →
        entered.takeByte { value := v, order := false } =
          { entered with
            parser :=
              { body with
                formStage := { pitch := if v = 6 then .valid .twelve else if v = 8 then .valid .nine else .invalid } } }) ∧
      ∀ v : Byte, o = .loadGlyph →
        entered.takeByte { value := v, order := false } =
          { entered with parser := { body with remaining := some 9, glyphStage := { index := some v.toNat } } }

/-! ## Control orders -/

/-- HOLD (R58, R59, R132, R154): in ONLINE it applies at a boundary, withdraws a motion at s = 0, and pends after the first step;
in STOPPED, HELD and FORMING it is disregarded, and a station that takes no strobe (RST low, STARTING, PINIT low) does not take it. That it withdraws a FEED at s = 0 too, in ONLINE after a KSTART, is the model's
inference from R59 (log 21): R61's own list does not name HOLD. -/
def Obligations.HoldStopsAtTheBoundary : Prop :=
  (∀ s : State, s.quiet = true → s.answers = false → exec .hold s = .next { s with strobe := .none, pd := 0xFF }) ∧
  ∀ s : State, s.quiet = true → s.answers = true →
    (s.mode = .online → s.stops = {} → s.motion = none → exec .hold s = .next { s.strobed with mode := .held }) ∧
      (∀ m c rest, s.mode = .online → s.stops = {} → s.motion = some m → m.steps = 0 → m.feed = false → s.queue = c :: rest →
        exec .hold s = .next
          { s.strobed with
            mode := .held, motion := none, plan := none, stepDrive := .held, frameDelay := none
            queue := { c with state := .ready } :: rest }) ∧
      (∀ m, s.mode = .online → s.stops = {} → s.motion = some m → m.steps = 0 → m.feed = true →
        exec .hold s = .next
          { s.strobed with mode := .held, motion := none, plan := none, stepDrive := .held, frameDelay := none }) ∧
      (∀ m, s.mode = .online → s.motion = some m → 1 ≤ m.steps →
        exec .hold s = .next { s.strobed with stops := { s.stops with hold := true } }) ∧
      (s.mode ≠ .online → exec .hold s = .next s.strobed)

/-- DISCARD (R19, R62, R76, R77, R120, R133): the queue, the counter, the render, the input and the three faults are cleared; a
line whose motion has stepped is kept as sequence 127 without firing, and a FEED that has stepped goes on; in ONLINE the station becomes
HELD at its boundary, and the stop pends until then. A station that takes no strobe does not take it (R154). -/
def Obligations.DiscardRemovesTheLines : Prop :=
  (∀ s : State, s.quiet = true → s.answers = false → exec .discard s = .next { s with strobe := .none, pd := 0xFF }) ∧
  ∀ s : State, s.quiet = true → s.answers = true →
    let faults := s.faults.filter fun f => !(f == .inputOverrun || f == .barBroken || f == .dataCheck)
    let cleared : State :=
      { s.strobed with
        queue := [], counter := 0, render := none, inputBuffer := [], parser := s.idleParser, faults := faults
        bufA := { s.bufA with holder := none }
        bufB := { s.bufB with holder := none } }
    let stopped : State := { cleared with motion := none, plan := none, stepDrive := .held, frameDelay := none }
    let next (m : Mode) : Mode := if m = .online then .held else m
    (s.mode.working = true → s.stops = {} → s.motion = none →
      exec .discard s = .next { cleared with mode := next s.mode }) ∧
      (∀ m, s.mode.working = true → s.stops = {} → s.motion = some m → m.steps = 0 →
        exec .discard s = .next { stopped with mode := next s.mode }) ∧
      (∀ m c rest, s.mode = .online → s.motion = some m → 1 ≤ m.steps → m.feed = false → s.queue = c :: rest →
        exec .discard s = .next
          { cleared with
            queue :=
              [{ c with
                  seq := 127, buffer := none
                  flags := { c.flags with blocked := c.flags.blocked && !s.faults.contains .dataCheck } }]
            motion := some { m with firing := false, row := .none }
            stops := { s.stops with discard := true } }) ∧
      (∀ m, s.mode = .stopped → s.motion = some m → 1 ≤ m.steps → m.feed = true → exec .discard s = .next cleared) ∧
      (∀ m, s.mode = .online → s.motion = some m → 1 ≤ m.steps → m.feed = true →
        exec .discard s = .next { cleared with stops := { s.stops with discard := true } }) ∧
      (s.mode = .forming → s.queue = [] → exec .discard s = .next { s.strobed with faults := faults })

/-- RESUME (R3, R134): it removes DATA CHECK with every BLOCKED flag, COVER OPEN with the cover closed, PAPER OUT with the paper
present; cancels HOLD and DISCARD; and makes a HELD station ONLINE. In FORMING it is disregarded, and a station that takes no strobe does not take it
(R154). -/
def Obligations.ResumeClearsAndReleases : Prop :=
  (∀ s : State, s.quiet = true → s.answers = false → exec .resume s = .next { s with strobe := .none, pd := 0xFF }) ∧
  ∀ s : State, s.quiet = true → s.answers = true →
    (s.mode.working = true →
      exec .resume s = .next
        { s.strobed with
          faults := s.faults.filter fun f =>
            !(f == .dataCheck || (f == .coverOpen && s.inputs.coverClosed) || (f == .paperOut && s.inputs.paperPresent))
          queue :=
            if s.faults.contains .dataCheck then
              s.queue.map fun c => { c with flags := { c.flags with blocked := false } }
            else s.queue
          stops := { s.stops with hold := false, discard := false }
          mode := if s.mode = .held then .online else s.mode }) ∧
      (s.mode = .forming → exec .resume s = .next s.strobed)

/-! ## Sense and status -/

/-- The class and the primary condition of a station, and its arbitration value (R162), with the classes and codes of the kinds
(R141, R161). -/
def Obligations.PrimaryConditionIsTheMostUrgent : Prop :=
  ([FaultKind.frameSkew, .inputOverrun, .barBroken, .coverOpen, .paperOut, .dataCheck].map (fun f => (f.cls, f.code)) =
    [(0, 0x01), (0, 0x02), (0, 0x03), (1, 0x11), (1, 0x12), (1, 0x13)]) ∧
  ([Warning.layerOverflow, .dataCheckBlanked, .channelAbsent, .shortRecord, .longRecord, .loadRejected, .orderError,
      .stationStarted].map Warning.code = [0x21, 0x22, 0x23, 0x24, 0x25, 0x26, 0x27, 0x28]) ∧
  ∀ s : State,
    (∀ pre f post, s.faults = pre ++ f :: post → f.cls = 0 → (∀ g ∈ pre, g.cls ≠ 0) → s.condition = (0, f.code)) ∧
      (∀ pre f post, s.faults = pre ++ f :: post → (∀ g ∈ s.faults, g.cls ≠ 0) → f.cls = 1 → (∀ g ∈ pre, g.cls ≠ 1) →
        s.condition = (1, f.code)) ∧
      (s.faults = [] → s.mode = .stopped → s.condition = (1, 0x14)) ∧
      (∀ w ws, s.faults = [] → s.mode ≠ .stopped → s.warnings = w :: ws → s.condition = (2, w.code)) ∧
      (s.faults = [] → s.mode ≠ .stopped → s.warnings = [] → s.condition = (3, 0x00)) ∧
      s.arbitrationValue.toNat = s.condition.1 * 8 + s.straps.station.toNat ∧ s.arbitrationValue.toNat ≤ 31

/-- PSTR_FALL (R157, R160, R163, R165, R166, R169): a write strobe begins with the data lines released; an answered read strobe
drives the status byte, whose bits are low for their conditions, or the byte of the sense read; a read that is not answered
drives nothing. On the arbitration read the station drives its value and withdraws each bit below one that it drives as 1 and finds
low; that the withdrawal is taken with the fall is the model's choice (log 30). The byte is held for the strobe: no command but one of
the port, a fall of PINIT or a full reset changes what is driven. A read row ends a status read, with the data lines released; that
these rows stand for its rise is the model's choice (log 17). -/
def Obligations.StrobeFallDrivesTheByte : Prop :=
  (∀ (own : Byte) (p : Peers) (k : Nat), k < 5 →
    ((withdrawn own p).getLsbD k = true ↔
      own.getLsbD k = true ∨ ∃ j, k < j ∧ j < 5 ∧ own.getLsbD j = true ∧ (arbitrate own p).getLsbD j = false)) ∧
  (∀ (own : Byte) (p : Peers) (k : Nat), 5 ≤ k → (withdrawn own p).getLsbD k = false) ∧
  (∀ own : Byte, own.toNat ≤ 31 → withdrawn own {} = own) ∧
  (∀ (c : Instr) (s t : State), strobesPort c = false → c ≠ .pinitFall → c ≠ .fullReset → exec c s = .next t →
    t.pd = s.pd ∧ t.strobe = s.strobe) ∧
  (∀ (s : State) (p : Peers), s.quiet = true → s.senseRead = none →
    exec (.arbitrationRead p) s = .next { s with strobe := .none, pd := 0xFF } ∧
      exec .senseRecordRead s = .next { s with strobe := .none, pd := 0xFF }) ∧
  ∀ (s : State) (p : Peers), s.quiet = true →
    exec (.pstrFall .write) s = .next { s with strobe := .write, pd := 0xFF } ∧
      (s.answers = false → exec (.pstrFall (.read p)) s = .next { s with strobe := .read false, pd := 0xFF }) ∧
      (s.answers = true → s.senseRead = none →
        exec (.pstrFall (.read p)) s = .next { s with strobe := .read true, pd := s.statusByte } ∧
          s.statusByte.getLsbD 7 = !(s.faults != [] || s.faultLow) ∧
          s.statusByte.getLsbD 6 = !(s.mode == .forming || s.mode == .stopped) ∧
          s.statusByte.getLsbD 5 = !(s.mode == .held) ∧
          s.statusByte.getLsbD 4 = !s.overflow ∧
          s.statusByte.getLsbD 3 = (s.condition.1 == 3) ∧
          s.statusByte.getLsbD 2 = !(s.queue != [] || s.motion.isSome) ∧
          s.statusByte.getLsbD 1 = (s.parser.state == .idle) ∧
          s.statusByte.getLsbD 0 = (s.inputBuffer == [])) ∧
      ∀ r, s.answers = true → s.senseRead = some r →
        let drives (b : Byte) : Prop := exec (.pstrFall (.read p)) s = .next { s with strobe := .read true, pd := b }
        (r.index = 0 → drives (withdrawn r.snapshot.arbitration p)) ∧ (1 ≤ r.index → r.winner = false → drives 0xFF) ∧
          (r.winner = true →
            (r.index = 1 → drives r.snapshot.condition) ∧ (r.index = 2 → drives r.snapshot.status) ∧
              (r.index = 3 → drives r.snapshot.line) ∧ (r.index = 4 → drives r.snapshot.countLow) ∧
              (r.index = 5 → drives r.snapshot.countHigh) ∧ (r.index = 6 → drives r.snapshot.warned) ∧
              (r.index = 7 → drives r.snapshot.oldest) ∧ (8 ≤ r.index → drives 0xFF))

/-- SENSE takes the snapshot and begins a sense read at index 0; the snapshot's bytes are as R164 tables them (R6, R42,
R164). A station that takes no strobe does not take it (R154). -/
def Obligations.SenseFixesTheSnapshot : Prop :=
  (∀ s : State, s.quiet = true → s.answers = false → exec .sense s = .next { s with strobe := .none, pd := 0xFF }) ∧
  ∀ s : State, s.quiet = true → s.answers = true →
    ∃ b : Snapshot,
      exec .sense s = .next
        { s.strobed with senseRead := some { snapshot := b, kinds := s.warnings, index := 0, winner := false } } ∧
      b.arbitration = s.arbitrationValue ∧ b.condition = s.condition.2 ∧
      (b.status.getLsbD 7 = (s.faults != [] || s.faultLow)) ∧ b.status.getLsbD 6 = s.motion.isSome ∧
      b.status.getLsbD 5 = s.stops.any ∧ b.status.getLsbD 4 = false ∧
      (b.status.toNat % 16 =
        match s.mode with
        | .starting => 0 | .forming => 1 | .stopped => 2 | .online => 3 | .held => 4) ∧
      b.line = BitVec.ofNat 8 s.line ∧ b.countLow.toNat = s.formCount.toNat % 256 ∧
      b.countHigh.toNat = s.formCount.toNat / 256 ∧ (∀ w : Warning, b.warned.getLsbD w.bit = s.warnings.contains w) ∧
      (∀ c rest, s.queue = c :: rest → b.oldest.toNat = c.seq.toNat) ∧ (s.queue = [] → b.oldest = 0xFF)

/-- ARBITRATION_READ: the lines settle to the lower of the values offered, the station wins exactly when no peer offers a lower
one and no station outside the sense read holds a line low that it drives as 1, and the index becomes 1 (R165, R168). A read strobe
that the station does not answer leaves the sense read as it is (R166). -/
def Obligations.LowestValueWins : Prop :=
  (∀ own lowest : Byte, own.toNat ≤ 31 → (lowest.toNat ≤ 31 ∨ lowest = 0xFF) →
    (arbitrate own { lowest := lowest }).toNat = min own.toNat lowest.toNat) ∧
    (∀ (s : State) (p : Peers), s.quiet = true → (s.answers = false ∨ s.strobe = .read false) →
      exec (.arbitrationRead p) s = .next { s with strobe := .none, pd := 0xFF }) ∧
    ∀ (s : State) (r : SenseRead) (p : Peers),
      s.quiet = true → s.answers = true → s.strobe ≠ .read false → s.senseRead = some r → r.index = 0 →
      r.snapshot.arbitration.toNat ≤ 31 → (p.lowest.toNat ≤ 31 ∨ p.lowest = 0xFF) →
      exec (.arbitrationRead p) s = .next
        { s with
          strobe := .none
          pd := 0xFF
          senseRead := some
            { r with
              index := 1
              winner := decide
                (r.snapshot.arbitration.toNat ≤ p.lowest.toNat ∧
                  r.snapshot.arbitration &&& p.held = r.snapshot.arbitration) } }

/-- SENSE_RECORD_READ: the index advances up to 8, and the winner's read of byte 7 takes the snapshot's kinds out of the warning
set; a loser consumes nothing (R166, R167). A read strobe that the station does not answer leaves the read index as it is and consumes
nothing (R166). That a read strobe answered at its fall counts though a short PINIT pulse fell and rose
within it is the model's choice (log 32). -/
def Obligations.ReadOfByteSevenConsumes : Prop :=
  (∀ s : State, s.quiet = true → (s.answers = false ∨ s.strobe = .read false) →
    exec .senseRecordRead s = .next { s with strobe := .none, pd := 0xFF }) ∧
  ∀ (s : State) (r : SenseRead), s.quiet = true → s.answers = true → s.strobe ≠ .read false → s.senseRead = some r →
    (1 ≤ r.index → r.index ≤ 6 →
      exec .senseRecordRead s = .next
        { s with strobe := .none, pd := 0xFF, senseRead := some { r with index := r.index + 1 } }) ∧
      (r.index = 7 →
        exec .senseRecordRead s = .next
          { s with
            strobe := .none
            pd := 0xFF
            senseRead := some { r with index := 8 }
            warnings := if r.winner then s.warnings.filter fun w => !r.kinds.contains w else s.warnings }) ∧
      (8 ≤ r.index →
        exec .senseRecordRead s = .next { s with strobe := .none, pd := 0xFF, senseRead := some { r with index := 8 } })

/-! ## Resets -/

/-- PINIT_FALL: the station takes no strobe, answers no read, and holds PRDY low while PINIT is low. PINIT: a low level of at least
10 us in STOPPED, ONLINE or HELD resets the port's side of every block, keeps a line that has stepped as sequence 127 with its buffer
and its firing, lets a FEED that has stepped go on, and makes a HELD station ONLINE; a shorter one, or one in STARTING or FORMING or with
RST low, is disregarded (R20, R61, R63, R139, R154, R157, R159). The clock's new value (log 4), that a rise with no fall given is timed
from the present moment (log 9), that a fall of a PINIT already low keeps its time (log 18), and that a fall within an answered read
strobe releases the data lines for the rest of it (log 32), are the model's choice. -/
def Obligations.PinitClosesAndResetsThePort : Prop :=
  (∀ (s : State) (t0 : Nat), s.quiet = true → (s.pinitLowSince = some t0 ∨ (s.pinitLowSince = none ∧ t0 = s.clock)) →
    ∃ t, exec .pinitFall s = .next t ∧ t = { s with pinitLowSince := some t0, pd := 0xFF } ∧ t.answers = false ∧
      t.holdsPrdy = true) ∧
  ∀ (s : State) (t0 lowFor : Nat), s.quiet = true →
    (s.pinitLowSince = some t0 ∨ (s.pinitLowSince = none ∧ t0 = s.clock)) →
    let u : State := { s with pinitLowSince := none, clock := max s.clock (t0 + lowFor) }
    let cleared : State :=
      { u with
        queue := [], counter := 0, render := none, inputBuffer := [], parser := s.idleParser, senseRead := none, stops := {}
        bufA := { s.bufA with holder := none }
        bufB := { s.bufB with holder := none }
        faults := s.faults.filter fun f =>
          !(f == .inputOverrun || f == .barBroken || f == .dataCheck || (f == .coverOpen && s.inputs.coverClosed) ||
            (f == .paperOut && s.inputs.paperPresent))
        mode := if s.mode = .held then .online else s.mode }
    ((lowFor < 10 ∨ s.mode.working = false ∨ s.rstLow = true) → exec (.pinit lowFor) s = .next u) ∧
      (10 ≤ lowFor → s.mode.working = true → s.rstLow = false →
        (s.motion = none → exec (.pinit lowFor) s = .next cleared) ∧
          (∀ m, s.motion = some m → m.steps = 0 →
            exec (.pinit lowFor) s = .next
              { cleared with motion := none, plan := none, stepDrive := .held, frameDelay := none }) ∧
          (∀ m c rest, s.motion = some m → 1 ≤ m.steps → m.feed = false → s.queue = c :: rest →
            exec (.pinit lowFor) s = .next
              { cleared with
                queue :=
                  [{ c with
                      seq := 127
                      flags := { c.flags with blocked := c.flags.blocked && !s.faults.contains .dataCheck } }]
                bufA := { s.bufA with holder := if s.bufA.holder = some c.seq then some 127 else none }
                bufB := { s.bufB with holder := if s.bufB.holder = some c.seq then some 127 else none } }) ∧
          ∀ m, s.motion = some m → 1 ≤ m.steps → m.feed = true → exec (.pinit lowFor) s = .next cleared)

/-- The straps are clamped as they are sampled (R123). -/
def Obligations.StrapsAreClamped : Prop :=
  ∀ p : StrapPins,
    let t := Straps.sample p
    (p.fcol = 0 → t.fcol = 1) ∧ (1 ≤ p.fcol.toNat → p.fcol.toNat ≤ 192 → t.fcol = p.fcol.toNat) ∧
      (193 ≤ p.fcol.toNat → t.fcol = 192) ∧
      (p.wid.toNat ≤ 24 → t.width = 8 + p.wid.toNat) ∧ (25 ≤ p.wid.toNat → t.width = 32) ∧
      t.effective = min t.width (193 - t.fcol) ∧ 1 ≤ t.effective ∧ t.effective ≤ 32 ∧ 1 ≤ t.fcol ∧
      t.fcol + t.effective - 1 ≤ 192

/-- RESET_RELEASE: the straps are sampled, the filters hold the levels of R140, STARTING is entered and the start interval
begins; a PINIT already low is timed from here (R122, R125, R140, R159). In full reset no input filter samples, so a change of COVER,
PAPER, JOIN or a key changes nothing (R140). That a release of an RST that is not low changes nothing is the model's choice (log 18). -/
def Obligations.ReleaseEntersStarting : Prop :=
  (∀ (s : State) (p : StrapPins), s.quiet = true → s.rstLow = false → exec (.resetRelease p) s = .next s) ∧
  (∀ (s : State) (i : Instr), s.quiet = true → s.rstLow = true →
    i ∈ [.coverOpen, .coverClosed, .paperAbsent, .paperPresent, .kstart, .kstop, .kfeed, .ktof, .joinRise, .joinFall] →
    exec i s = .next s) ∧
  ∀ (s : State) (p : StrapPins), s.quiet = true → s.rstLow = true →
    exec (.resetRelease p) s = .next
      { s with
        rstLow := false
        straps := Straps.sample p
        mode := .starting
        startInterval := some s.clock
        pinitLowSince := if s.pinitLowSince = none then none else some s.clock
        inputs :=
          { coverClosed := true, paperPresent := true, kstart := false, kstop := false, kfeed := false, ktof := false,
            joinHigh := false } }

/-! ## Formation -/

/-- The start interval leads to FORMING, a rise of JOIN starts the forming interval, and its expiry leads to STOPPED, where an
open cover and absent paper are found (R125, R126, R145, R147). The clock's new value is the model's choice (log 4), as is that a rise
of JOIN outside FORMING changes the accepted level alone (log 27) and one already accepted changes nothing (log 18). -/
def Obligations.TheBarForms : Prop :=
  ∀ (s : State) (t0 : Nat), s.quiet = true → s.rstLow = false →
    (s.startInterval = some t0 →
      exec .startIntervalExpiry s = .next
        { s with
          clock := max s.clock (t0 + 10000)
          startInterval := none
          mode := .forming
          formingInterval := if s.inputs.joinHigh then some (max s.clock (t0 + 10000)) else none }) ∧
      (s.inputs.joinHigh = false →
        exec .joinRise s = .next
          { s with
            inputs := { s.inputs with joinHigh := true }
            formingInterval := if s.mode = .forming then some s.clock else s.formingInterval }) ∧
      (s.inputs.joinHigh = true → exec .joinRise s = .next s) ∧
      (s.formingInterval = some t0 → s.motion = none → s.stops = {} → s.stepDrive = .held →
        exec .formingIntervalExpiry s = .next
          { s with
            clock := max s.clock (t0 + 50000)
            formingInterval := none
            mode := .stopped
            faults :=
              let fs := if s.inputs.coverClosed then s.faults else addOnce .coverOpen s.faults
              if s.inputs.paperPresent then fs else addOnce .paperOut fs
            faultLow := s.faultLow || !s.inputs.coverClosed || !s.inputs.paperPresent })

/-- JOIN_FALL (R21, R64, R137, R138): in STOPPED, ONLINE and HELD the bar is broken; in FORMING the forming interval is
cleared; in STARTING it is disregarded but for the accepted level. A fall already accepted is no change (R140, log 18). -/
def Obligations.JoinFallBreaksTheBar : Prop :=
  (∀ s : State, s.quiet = true → s.inputs.joinHigh = false → exec .joinFall s = .next s) ∧
  ∀ s : State, s.quiet = true → s.rstLow = false → s.inputs.joinHigh = true →
    let broken (fs : List FaultKind) : State :=
      { s with
        inputs := { s.inputs with joinHigh := false }
        queue := [], counter := 0, render := none, inputBuffer := [], parser := s.idleParser, stops := {}
        bufA := { s.bufA with holder := none }
        bufB := { s.bufB with holder := none }
        motion := none, plan := none, stepDrive := .held, frameDelay := none, formingInterval := none
        mode := .forming, faultLow := true, faults := fs }
    (∀ m, s.mode.working = true → s.motion = some m → 1 ≤ m.steps →
      exec .joinFall s = .next (broken (addOnce .barBroken (addOnce .frameSkew s.faults)))) ∧
      (∀ m, s.mode.working = true → s.motion = some m → m.steps = 0 →
        exec .joinFall s = .next (broken (addOnce .barBroken s.faults))) ∧
      (s.mode.working = true → s.motion = none → exec .joinFall s = .next (broken (addOnce .barBroken s.faults))) ∧
      (s.mode = .forming →
        exec .joinFall s = .next
          { s with inputs := { s.inputs with joinHigh := false }, formingInterval := none }) ∧
      (s.mode = .starting → exec .joinFall s = .next { s with inputs := { s.inputs with joinHigh := false } })

/-! ## Interlocks and keys -/

/-- COVER_OPEN records COVER OPEN and cuts the head off at once; COVER_CLOSED removes nothing (R53, R144, R145, R146). A cover already
accepted open is no change (R140, log 18). -/
def Obligations.CoverCutsTheHeadOff : Prop :=
  ∀ s : State, s.quiet = true → s.rstLow = false →
    (s.inputs.coverClosed = false → exec .coverOpen s = .next s) ∧
      (s.inputs.coverClosed = true → s.mode.working = true →
        ∃ t, exec .coverOpen s = .next t ∧
          t = State.stoppedBy { s with inputs := { s.inputs with coverClosed := false } } .coverOpen ∧
          t.faulted = true ∧ t.holdsFault = true ∧ t.holdsStep = true ∧ t.fireOn = false) ∧
      (s.inputs.coverClosed = true → s.mode.working = false →
        exec .coverOpen s = .next { s with inputs := { s.inputs with coverClosed := false } }) ∧
      exec .coverClosed s = .next { s with inputs := { s.inputs with coverClosed := true } }

/-- PAPER_ABSENT adds a PAPER stop, which records PAPER OUT at a boundary or through withdrawal and pends after the first step;
PAPER_PRESENT removes nothing (R59, R147, R148). Outside STOPPED, ONLINE and HELD only the accepted level changes; paper already accepted
absent is no change (R140, log 18). -/
def Obligations.PaperStopsAtTheBoundary : Prop :=
  ∀ s : State, s.quiet = true → s.rstLow = false →
    let out : State :=
      { s with
        inputs := { s.inputs with paperPresent := false }
        stepDrive := .held, faultLow := true, faults := addOnce .paperOut s.faults }
    (s.inputs.paperPresent = false → exec .paperAbsent s = .next s) ∧
      exec .paperPresent s = .next { s with inputs := { s.inputs with paperPresent := true } } ∧
      (s.inputs.paperPresent = true →
        (s.mode.working = true → s.motion = none → s.stops = {} → exec .paperAbsent s = .next out) ∧
        (∀ m c rest, s.mode.working = true → s.motion = some m → m.steps = 0 → s.stops = {} → m.feed = false →
          s.queue = c :: rest →
          exec .paperAbsent s = .next
            { out with
              motion := none, plan := none, frameDelay := none
              queue := { c with state := .ready } :: rest }) ∧
        (∀ m, s.mode.working = true → s.motion = some m → m.steps = 0 → s.stops = {} → m.feed = true →
          exec .paperAbsent s = .next { out with motion := none, plan := none, frameDelay := none }) ∧
        (∀ m, s.mode.working = true → s.motion = some m → 1 ≤ m.steps →
          exec .paperAbsent s = .next
            { s with
              inputs := { s.inputs with paperPresent := false }
              stops := { s.stops with paper := true } }) ∧
        (s.mode.working = false →
          exec .paperAbsent s = .next { s with inputs := { s.inputs with paperPresent := false } }))

/-- KSTART (R135): it removes faults as RESUME does, cancels KSTOP, and makes a STOPPED station ONLINE; KSTOP (R136): it stops an
ONLINE station at its boundary or by withdrawal at s = 0, makes a HELD one STOPPED, withdraws a FEED at s = 0 in STOPPED and has no
effect on one that has stepped. Both are disregarded in STARTING and FORMING. That KSTOP in ONLINE withdraws a FEED too is the model's
inference from R59 (log 21). -/
def Obligations.KeysStartAndStop : Prop :=
  ∀ s : State, s.quiet = true → s.rstLow = false →
    (s.mode.working = true →
      exec .kstart s = .next
        { s with
          inputs := { s.inputs with kstart := true }
          faults := s.faults.filter fun f =>
            !(f == .dataCheck || (f == .coverOpen && s.inputs.coverClosed) || (f == .paperOut && s.inputs.paperPresent))
          queue :=
            if s.faults.contains .dataCheck then
              s.queue.map fun c => { c with flags := { c.flags with blocked := false } }
            else s.queue
          stops := { s.stops with kstop := false }
          mode := if s.mode = .stopped then .online else s.mode }) ∧
      (s.mode = .online → s.motion = none → s.stops = {} →
        exec .kstop s = .next { s with inputs := { s.inputs with kstop := true }, mode := .stopped }) ∧
      (∀ m, s.mode = .online → s.motion = some m → 1 ≤ m.steps →
        exec .kstop s = .next
          { s with inputs := { s.inputs with kstop := true }, stops := { s.stops with kstop := true } }) ∧
      (s.mode = .held → exec .kstop s = .next { s with inputs := { s.inputs with kstop := true }, mode := .stopped }) ∧
      (∀ m, s.mode = .stopped → s.motion = some m → m.feed = true → m.steps = 0 →
        exec .kstop s = .next
          { s with
            inputs := { s.inputs with kstop := true }
            motion := none, plan := none, stepDrive := .held, frameDelay := none }) ∧
      (∀ m c rest, s.mode = .online → s.stops = {} → s.motion = some m → m.steps = 0 → m.feed = false → s.queue = c :: rest →
        exec .kstop s = .next
          { s with
            inputs := { s.inputs with kstop := true }
            mode := .stopped, motion := none, plan := none, stepDrive := .held, frameDelay := none
            queue := { c with state := .ready } :: rest }) ∧
      (∀ m, s.mode = .online → s.stops = {} → s.motion = some m → m.steps = 0 → m.feed = true →
        exec .kstop s = .next
          { s with
            inputs := { s.inputs with kstop := true }
            mode := .stopped, motion := none, plan := none, stepDrive := .held, frameDelay := none }) ∧
      (s.mode = .stopped → (s.motion = none ∨ ∃ m, s.motion = some m ∧ 1 ≤ m.steps) →
        exec .kstop s = .next { s with inputs := { s.inputs with kstop := true } }) ∧
      ((s.mode = .starting ∨ s.mode = .forming) →
        exec .kstart s = .next { s with inputs := { s.inputs with kstart := true } } ∧
          exec .kstop s = .next { s with inputs := { s.inputs with kstop := true } })

/-- KFEED (R61, R151): in STOPPED, not faulted, at a boundary and with no LOAD FORM body being taken, a FEED starts with the
action SKIP 1 and firing OFF; otherwise the press is disregarded. -/
def Obligations.FeedSkipsToChannelOne : Prop :=
  ∀ s : State, s.quiet = true → s.rstLow = false →
    let open' : Prop :=
      s.mode = .stopped ∧ s.faults = [] ∧ s.faultLow = false ∧ s.motion = none ∧
        ¬(s.parser.state = .body ∧ s.parser.order = some .loadForm)
    let p := s.form.planFor s.line s.overflow (.skip 1)
    (open' →
      exec .kfeed s = .next
        { s with
          inputs := { s.inputs with kfeed := true }
          plan := some p
          motion := some
            { feed := true, distance := p.distance, steps := 0, firing := false, row := .none, timer := .stopped }
          stepDrive := .held
          frameDelay := none
          warnings :=
            if (s.form.skipLines s.line 1).isNone then addOnce .channelAbsent s.warnings else s.warnings }) ∧
      (¬open' → exec .kfeed s = .next { s with inputs := { s.inputs with kfeed := true } })

/-- KTOF (R22, R41, R58, R65, R152): accepted, it abandons a motion with its composite, or a FEED, sets the top of the form, removes
FRAME SKEW and applies the pending stops where a motion was abandoned; at a station that is not faulted it is disregarded in ONLINE and
HELD, and in STOPPED during a FEED. -/
def Obligations.TopOfFormKey : Prop :=
  ∀ s : State, s.quiet = true → s.rstLow = false →
    let top : State :=
      { s with
        inputs := { s.inputs with ktof := true }
        line := 0, formCount := 0, overflow := false
        faults := s.faults.filter fun f => f != .frameSkew }
    let abandoned : State :=
      { top with
        motion := none, plan := none, stepDrive := .held, frameDelay := none
        stops := {}
        mode := if s.stops.kstop then .stopped else if s.stops.hold || s.stops.discard then .held else s.mode
        faults := if s.stops.paper then addOnce .paperOut top.faults else top.faults
        faultLow := s.faultLow || s.stops.paper }
    (s.motion = none → (s.mode = .starting ∨ s.mode = .forming ∨ s.mode = .stopped ∨ s.faults ≠ [] ∨ s.faultLow = true) →
      exec .ktof s = .next top) ∧
      (∀ m c rest, s.motion = some m → m.feed = false → s.queue = c :: rest → (s.faults ≠ [] ∨ s.faultLow = true) →
        exec .ktof s = .next
          { abandoned with
            queue := rest
            bufA := if s.bufA.holder = some c.seq then { s.bufA with holder := none } else s.bufA
            bufB := if s.bufB.holder = some c.seq then { s.bufB with holder := none } else s.bufB }) ∧
      (∀ m, s.motion = some m → m.feed = true → (s.faults ≠ [] ∨ s.faultLow = true) → exec .ktof s = .next abandoned) ∧
      ((s.mode = .online ∨ s.mode = .held ∨ (s.mode = .stopped ∧ s.motion ≠ none)) → s.faults = [] → s.faultLow = false →
        exec .ktof s = .next { s with inputs := { s.inputs with ktof := true } })

/-! ## The FAULT line -/

/-- FAULT_FALL makes a station with an empty fault set a bystander, with its pulse ended and STEP and PRDY held low, and leaves a
station with a fault of its own as it is (R53, R143, R144). -/
def Obligations.FaultFallMakesABystander : Prop :=
  ∀ s : State, s.quiet = true →
    (s.faults = [] →
      ∃ t, exec .faultFall s = .next t ∧
        t = { s with
          faultLow := true, stepDrive := .held, motion := s.motion.map (Motion.interrupted s.clock) } ∧
        t.bystander = true ∧ t.holdsFault = false ∧ t.holdsStep = true ∧ t.holdsPrdy = true ∧ t.fireOn = false) ∧
      (s.faults ≠ [] → exec .faultFall s = .next s)

/-- FAULT_RISE: a bystander ceases to be faulted, its DUE row and its frame timer start again, and a motion that waits at its end
is concluded if FRAME is high (R53, R56, R57, R143). The level of FRAME is the model's operand (log 7); that a motion which starts
after such a conclusion holds FRAME low at once is the model's inference (log 20): the moment is no frame event. -/
def Obligations.FaultRiseResumes : Prop :=
  ∀ (s : State) (high : Bool), s.quiet = true → s.faults = [] → s.faultLow = true →
    (s.motion = none → exec (.faultRise high) s = .next { s with faultLow := false }) ∧
      (∀ m, s.motion = some m → (high = false ∨ m.steps ≠ m.distance ∨ m.row ≠ .none) →
        exec (.faultRise high) s = .next { s with faultLow := false, motion := some (m.resumed s.clock) }) ∧
      ∀ m p, s.motion = some m → m.row = .none → m.steps = m.distance → high = true → s.plan = some p →
        (m.feed = false → ∀ c rest, s.queue = c :: rest → s.bufA.holder ≠ some c.seq ∧ s.bufB.holder ≠ some c.seq) →
        exec (.faultRise high) s = .next (s.concluded m p)

/-! ## Paper motion -/

/-- SPACE k moves k lines whatever the form's length, and D = j × p lies from 9 to 1728 (R32, R35). -/
def Obligations.SpacesAndDistances : Prop :=
  (∀ (f : FormImage) (n k : Nat), f.linesMoved n (.space k) = k) ∧
    (∀ (f : FormImage) (n : Nat) (b : Bool) (a : Action),
      (f.planFor n b a).distance = (f.planFor n b a).lines * (if f.pitch = .twelve then 12 else 9)) ∧
    (∀ (f : FormImage) (n : Nat) (b : Bool) (k : Nat), 1 ≤ k → k ≤ 3 →
      1 ≤ (f.planFor n b (.space k)).lines ∧ (f.planFor n b (.space k)).lines ≤ 3 ∧
        9 ≤ (f.planFor n b (.space k)).distance ∧ (f.planFor n b (.space k)).distance ≤ 36) ∧
    (∀ (f : FormImage) (n : Nat) (b : Bool) (c : Nat), 1 ≤ f.length → f.length ≤ 144 →
      1 ≤ (f.planFor n b (.skip c)).lines ∧ (f.planFor n b (.skip c)).lines ≤ 144 ∧
        9 ≤ (f.planFor n b (.skip c)).distance ∧ (f.planFor n b (.skip c)).distance ≤ 1728) ∧
    (∀ (f : FormImage) (b : Bool), f.length = 1 →
      (f.planFor 0 b (.space 3)).landing = 0 ∧ (f.planFor 0 b (.space 3)).increase = 3) ∧
    ∀ (f : FormImage) (b : Bool), f.length = 2 →
      (f.planFor 1 b (.space 3)).landing = 0 ∧ (f.planFor 1 b (.space 3)).increase = 2

/-- SKIP c moves to the first line after the present one that carries c, searching at most one form (R33); where no line carries
c, it moves one line (R34). -/
def Obligations.SkipFindsTheNextLine : Prop :=
  ∀ (f : FormImage) (n c : Nat), 1 ≤ f.length → f.length ≤ 144 → n < f.length →
    (∀ j, f.skipLines n c = some j ↔
      1 ≤ j ∧ j ≤ f.length ∧ f.carries ((n + j) % f.length) c = true ∧
        ∀ i, 1 ≤ i → i < j → f.carries ((n + i) % f.length) c = false) ∧
      (∀ j, f.skipLines n c = some j → f.linesMoved n (.skip c) = j ∧ 1 ≤ j ∧ j ≤ 144) ∧
      ((∀ l, l < f.length → (f.carries l c = true ↔ l = n)) → f.linesMoved n (.skip c) = f.length) ∧
      (f.skipLines n c = none ↔ ∀ l, l < f.length → f.carries l c = false) ∧
      (f.skipLines n c = none → f.linesMoved n (.skip c) = 1 ∧ f.channelAbsent n (.skip c) = true) ∧
      FormImage.default.linesMoved 0 (.skip 1) = 66

/-- The landing line is (n + j) mod L and carries the channel of a skip that found one; the form count rises at conclusion by
⌊(n + j) / L⌋ modulo 65536 (R36, R37). -/
def Obligations.LandingAndFormCount : Prop :=
  (∀ (f : FormImage) (n : Nat) (b : Bool) (a : Action),
    (f.planFor n b a).landing = (n + (f.planFor n b a).lines) % f.length ∧
      (f.planFor n b a).increase = (n + (f.planFor n b a).lines) / f.length) ∧
    (∀ (f : FormImage) (n : Nat) (b : Bool) (c : Nat), (f.skipLines n c).isSome = true →
      f.carries (f.planFor n b (.skip c)).landing c = true) ∧
    (∀ (f : FormImage) (n : Nat) (b : Bool) (c : Nat), 1 ≤ f.length → n < f.length →
      (f.planFor n b (.skip c)).increase ≤ 1) ∧
    (∀ (f : FormImage) (n : Nat) (b : Bool) (k : Nat), 1 ≤ f.length → n < f.length → k ≤ 3 →
      (f.planFor n b (.space k)).increase ≤ 3) ∧
    ∀ (s : State) (p : Plan), s.plan = some p →
      s.applyPlan.line = p.landing ∧ s.applyPlan.formCount.toNat = (s.formCount.toNat + p.increase) % 65536

/-- The overflow latch after a motion (R38): clear where the landing line carries channel 1; else set where it was set, or where a
line passed carries channel 12; else clear. -/
def Obligations.OverflowLatchRule : Prop :=
  ∀ (f : FormImage) (n : Nat) (before : Bool) (a : Action),
    let p := f.planFor n before a
    (f.carries p.landing 1 = true → p.overflow = false) ∧
      (f.carries p.landing 1 = false →
        (p.overflow = true ↔
          before = true ∨ ∃ i, 1 ≤ i ∧ i ≤ p.lines ∧ f.carries ((n + i) % f.length) 12 = true))

/-- MOTION_START (R17, R43, R44, R45, R46, R54, R149): the oldest READY composite of a station free to print starts its motion with
its plan; one flagged BLOCKED records DATA CHECK instead and stays READY. With a motion in progress, faulted, in a mode other than
ONLINE, with a stop pending or without a READY composite at its head, the station starts nothing (R44, R128, R144). -/
def Obligations.FreeStationStartsTheOldest : Prop :=
  (∀ s : State,
    (s.motion ≠ none ∨ s.faults ≠ [] ∨ s.faultLow = true ∨ s.mode ≠ .online ∨ s.stops ≠ {} ∨ s.queue = [] ∨
      ∃ c rest, s.queue = c :: rest ∧ c.state ≠ .ready) →
    exec .motionStart s = .next s) ∧
  ∀ (s : State) (c : Composite) (rest : List Composite) (a : Action),
    s.motion = none → s.faults = [] → s.faultLow = false → s.mode = .online → s.stops = {} →
    s.queue = c :: rest → c.state = .ready → c.action = some a →
    let p := s.form.planFor s.line s.overflow a
    (c.flags.blocked = false →
      exec .motionStart s = .next
        { s with
          queue := { c with state := .printing } :: rest
          plan := some p
          motion := some
            { feed := false, distance := p.distance, steps := 0, firing := !c.layers.isEmpty, row := .none,
              timer := .stopped }
          stepDrive := .held
          frameDelay := if s.frameMoment then some s.clock else none
          warnings :=
            match a with
            | .skip ch => if (s.form.skipLines s.line ch).isNone then addOnce .channelAbsent s.warnings else s.warnings
            | .space _ => s.warnings }) ∧
      (c.flags.blocked = true →
        exec .motionStart s = .next { s with faults := [.dataCheck], faultLow := true, stepDrive := .held })

/-- STEP (R49, R50, R55, R57): a stepping station advances s, replaces its step record, and row s - 1 falls due for s from 1 to 9
while firing is ON; at s = D the frame timer starts. One taken in the instant the station becomes faulted is counted all the same, its
row stays DUE, STEP is held low and the timer holds still (R47, R49, R57). A step with no motion or at its end records FRAME SKEW. That
a step over a DUE or FIRING row replaces the row, that a step which records FRAME SKEW keeps the step record, and that a step in full
reset or STARTING changes nothing, is the model's inference (log 15). -/
def Obligations.StepCountsAndBringsTheRow : Prop :=
  (∀ s : State, s.quiet = true → (s.rstLow = true ∨ s.mode = .starting) → exec .step s = .next s) ∧
  ∀ s : State, s.quiet = true → s.rstLow = false → s.mode ≠ .starting →
    (∀ m, s.motion = some m → m.steps < m.distance → (s.faults = [] ∨ s.faultLow = true) →
      exec .step s = .next
        { s with
          motion := some
            { m with
              steps := m.steps + 1
              row := if m.firing = true ∧ m.steps + 1 ≤ 9 then .due s.clock else .none
              timer :=
                if m.steps + 1 = m.distance then (if s.faultLow = true then .still 0 else .running s.clock) else m.timer }
          stepRecord := some { time := s.clock, pulse := false }
          stepDrive := if s.faultLow = true then .held else .pulse }) ∧
      (∀ m, s.motion = some m → m.steps = m.distance →
        exec .step s = .next (s.stoppedBy .frameSkew)) ∧
      (s.motion = none → exec .step s = .next (s.stoppedBy .frameSkew))

/-- FRAME_EVENT (R18, R39, R56, R58): a motion at its end with its row NONE at a station that is not faulted is concluded; a
faulted or stepping station, or one at a boundary, is left as it is. That the model notes the moment is its own choice (log 5), and that
a station at its end with its row DUE or FIRING, which holds FRAME low itself, is left as it is too is its inference (log 16). -/
def Obligations.FrameEventConcludes : Prop :=
  ∀ s : State, s.quiet = true →
    (∀ m p, s.motion = some m → m.steps = m.distance → m.row = .none → s.faults = [] → s.faultLow = false →
      s.plan = some p →
      (m.feed = false → ∀ c rest, s.queue = c :: rest → s.bufA.holder ≠ some c.seq ∧ s.bufB.holder ≠ some c.seq) →
      exec .frameEvent s = .next { s.concluded m p with frameMoment := true }) ∧
      ((s.faults ≠ [] ∨ s.faultLow = true ∨ s.motion = none ∨
          ∃ m, s.motion = some m ∧ (m.steps ≠ m.distance ∨ m.row ≠ .none)) →
        exec .frameEvent s = .next s)

/-- STEP_PULSE_END pulls STEP low 50 us after the step, and STEP_RELEASE releases it once the step interval has elapsed with the
row NONE at a stepping station that is not faulted: the print period after a fired row, 0.5 ms after none, at once where the step
record holds no step (R47, R48, R60). It releases nothing while faulted, at a boundary, at a motion's end, or with the row DUE or
FIRING. The clock's new value is the model's choice (log 4), as is that a row whose pulse or release is past changes nothing
(log 18). -/
def Obligations.StepIsPacedByItsInterval : Prop :=
  ∀ s : State, s.quiet = true →
    (∀ r, s.stepDrive = .pulse → s.stepRecord = some r →
      exec .stepPulseEnd s = .next { s with clock := max s.clock (r.time + 50), stepDrive := .held }) ∧
      (∀ m, s.motion = some m → m.steps ≠ m.distance → m.row = .none → s.faults = [] → s.faultLow = false →
        s.stepDrive = .held →
        exec .stepRelease s = .next
          { s with
            stepDrive := .released
            clock := max s.clock
              (match s.stepRecord with
                | none => 0
                | some r =>
                  r.time +
                    (if r.pulse then
                      (if s.straps.rate = 0 then 2500 else if s.straps.rate = 1 then 3000
                        else if s.straps.rate = 2 then 4000 else 5000)
                    else 500)) }) ∧
      (s.stepDrive ≠ .pulse → exec .stepPulseEnd s = .next s) ∧
      ((s.faulted = true ∨ s.motion = none ∨ s.stepDrive = .released ∨
          ∃ m, s.motion = some m ∧ (m.steps = m.distance ∨ m.row ≠ .none)) →
        exec .stepRelease s = .next s)

/-- FIRE_PULSE_START shifts the DUE row s - 1 of the composite's buffer into the latches and begins its pulse at a station that is
not faulted; FIRE_PULSE_END makes the row NONE and, for row 8, frees the buffer (R48, R51, R52, R53, R75, R79). The clock's new
value (log 4), and that the row is shifted and latched as its pulse begins (log 31), are the model's choice. -/
def Obligations.DueRowIsFiredInFull : Prop :=
  ∀ (s : State) (m : Motion) (c : Composite) (rest : List Composite) (x : Nat),
    s.quiet = true → s.motion = some m → s.queue = c :: rest →
    let w := min s.straps.width (193 - s.straps.fcol)
    (m.row = .due x → s.faults = [] → s.faultLow = false →
      exec .firePulseStart s = .next
        { s with
          clock := max s.clock (x + 100)
          motion := some { m with row := .firing (max s.clock (x + 100)) }
          stepRecord := s.stepRecord.map fun r => { r with pulse := true }
          headLatch :=
            ((match c.buffer with
              | some .a => s.bufA.image.getD (m.steps - 1) []
              | some .b => s.bufB.image.getD (m.steps - 1) []
              | none => []) : DotRow).take (8 * w) }) ∧
      (m.row = .due x → s.faulted = true → exec .firePulseStart s = .next s) ∧
      (m.row = .firing x →
        let width :=
          if s.straps.fire = 0 then 300 else if s.straps.fire = 1 then 400 else if s.straps.fire = 2 then 500 else 600
        exec .firePulseEnd s = .next
          (if m.steps = 9 then
            { s with
              clock := max s.clock (x + width)
              motion := some { m with row := .none }
              queue := { c with buffer := none } :: rest
              bufA := if s.bufA.holder = some c.seq then { s.bufA with holder := none } else s.bufA
              bufB := if s.bufB.holder = some c.seq then { s.bufB with holder := none } else s.bufB }
          else { s with clock := max s.clock (x + width), motion := some { m with row := .none } }))

/-- FRAME_HOLD_DELAY holds FRAME low 50 us after the frame event at which a motion started; FRAME_TIMER_EXPIRY at 100 ms expires
the timer and records FRAME SKEW (R54, R57, R150). The clock's new value is the model's choice (log 4). -/
def Obligations.FrameHoldAndFrameTimer : Prop :=
  ∀ (s : State) (x : Nat), s.quiet = true →
    (∀ m, s.frameDelay = some x → s.motion = some m → m.steps < m.distance →
      ∃ t, exec .frameHoldDelay s = .next t ∧ t = { s with clock := max s.clock (x + 50), frameDelay := none } ∧
        t.holdsFrame = true) ∧
      (∀ m, s.motion = some m → m.timer = .running x → m.row = .none →
        exec .frameTimerExpiry s = .next
          { s with
            clock := max s.clock (x + 100000)
            motion := some { m with timer := .expired }
            faults := addOnce .frameSkew s.faults
            faultLow := true
            stepDrive := .held })

/-- The lines a station holds low and the events that release them. JOIN: held in full reset and STARTING, released as the start
interval expires. FRAME: held in full reset, STARTING and FORMING, and in a motion until its end with the row NONE; released at a
boundary, by the step that brings s to D with no row due, and by the end of the row-8 fire of a motion with D = 9. PRDY: held for R157's
conditions and no other; released as KSTART makes a sound STOPPED station ONLINE and at the rise of a control order's strobe (R52, R54,
R55, R56, R126, R137, R157). Full reset holds FRAME low by R125. -/
def Obligations.LinesAreHeldAndReleased : Prop :=
  (∀ s : State,
    (s.holdsJoin = true ↔ s.rstLow = true ∨ s.mode = .starting) ∧
      (s.holdsFrame = true ↔
        s.rstLow = true ∨ s.mode = .starting ∨ s.mode = .forming ∨
          ∃ m, s.motion = some m ∧ (m.steps ≠ m.distance ∨ m.row ≠ .none) ∧ s.frameDelay = none) ∧
      (s.holdsPrdy = true ↔
        s.inputBuffer.length = 2 ∨ (s.strobe = .write ∧ s.inputBuffer ≠ []) ∨
          (s.mode = .starting ∨ s.mode = .forming ∨ s.mode = .stopped) ∨ (s.faults ≠ [] ∨ s.faultLow = true) ∨
          s.pinitLowSince ≠ none ∨ s.rstLow = true)) ∧
  ∀ s : State, s.quiet = true → s.rstLow = false →
    (∀ t0, s.startInterval = some t0 →
      ∃ t, exec .startIntervalExpiry s = .next t ∧ t.holdsJoin = false ∧ t.holdsFrame = true) ∧
      (∀ t0, s.formingInterval = some t0 → s.motion = none → s.stepDrive = .held →
        ∃ t, exec .formingIntervalExpiry s = .next t ∧ t.holdsJoin = false ∧ t.holdsFrame = false ∧ t.holdsStep = true ∧
          t.holdsPrdy = true) ∧
      (∀ m, s.mode.working = true → s.motion = some m → m.steps + 1 = m.distance → (m.firing = false ∨ 9 ≤ m.steps) →
        ∃ t, exec .step s = .next t ∧ t.holdsFrame = false) ∧
      (∀ m x, s.mode.working = true → s.motion = some m → m.steps = m.distance → m.row = .firing x →
        s.frameDelay = none →
        s.holdsFrame = true ∧ ∃ t, exec .firePulseEnd s = .next t ∧ t.holdsFrame = false) ∧
      (∀ m, s.mode.working = true → s.motion = some m → m.steps = m.distance → m.row = .none → s.faults = [] →
        s.faultLow = false →
        ∃ t, exec .frameEvent s = .next t ∧ t.motion = none ∧ t.holdsFrame = false ∧ t.holdsStep = true) ∧
      (s.mode = .stopped → s.faults = [] → s.faultLow = false → s.inputBuffer = [] → s.pinitLowSince = none →
        ∃ t, exec .kstart s = .next t ∧ s.holdsPrdy = true ∧ t.holdsPrdy = false) ∧
      (s.strobe = .write → s.inputBuffer.length = 1 → s.mode = .held → s.faults = [] → s.faultLow = false →
        s.pinitLowSince = none →
        ∃ t, exec .hold s = .next t ∧ s.holdsPrdy = true ∧ t.holdsPrdy = false)

/-! ## Rendering -/

/-- RENDER_START: with no render in flight and a free buffer, the oldest CLOSED composite takes A where A is free and B where only
B is; its dots are turned off and the render takes 40 us a layer (R67, R68, R69, R70). -/
def Obligations.RenderTakesTheOldestClosed : Prop :=
  ∀ (s : State) (pre post : List Composite) (c : Composite),
    s.render = none → s.queue = pre ++ c :: post → (∀ x ∈ pre, x.state ≠ .closed) → c.state = .closed →
    (s.bufA.holder = none →
      exec .renderStart s = .next
        { s with
          queue := pre ++ { c with state := .rendering, buffer := some .a } :: post
          bufA := { holder := some c.seq, image := List.replicate 9 (List.replicate 256 false) }
          render := some { seq := c.seq, buffer := .a, duration := 40 * c.layers.length, start := s.clock } }) ∧
      (s.bufA.holder ≠ none → s.bufB.holder = none →
        exec .renderStart s = .next
          { s with
            queue := pre ++ { c with state := .rendering, buffer := some .b } :: post
            bufB := { holder := some c.seq, image := List.replicate 9 (List.replicate 256 false) }
            render := some { seq := c.seq, buffer := .b, duration := 40 * c.layers.length, start := s.clock } }) ∧
      (s.bufA.holder ≠ none → s.bufB.holder ≠ none → exec .renderStart s = .next s)

/-- RENDER_COMPLETION: the composite is READY and its buffer holds nine rows in which dot e = 8i + d of row r is on exactly when, in
some layer, the glyph named by cell i has bit 7 - d set in its row r; BLANK and UNPRINTABLE render as glyph 0 (R71, R72, R74). Glyph 0
has no dot and glyph 95 every dot, a loaded glyph has the rows that LOAD GLYPH stored and a glyph not loaded none, a figure has no dot
in row 8, and the underscore has its dots in row 8 (R84; that it has none in another row is the model's inference, log 2). The clock's
new value is the model's choice (log 4). -/
def Obligations.RenderedImageIsTheUnionOfItsLayers : Prop :=
  (∀ (l : List Glyph) (row : Nat), glyphRow l 0 row = 0 ∧ glyphRow l 95 row = 0xFF) ∧
  (∀ (l : List Glyph) (g : Nat) (rows : Glyph) (row : Nat), 96 ≤ g → g ≤ 127 → l.length = 32 →
    glyphRow (l.set (g - 96) rows) (BitVec.ofNat 7 g) row = rows.getD row 0 ∧
      ∀ x : BitVec 7, x.toNat ≠ g → glyphRow (l.set (g - 96) rows) x row = glyphRow l x row) ∧
  (∀ (x : BitVec 7) (row : Nat), 96 ≤ x.toNat → glyphRow State.reset.loadable x row = 0) ∧
  (∀ (l : List Glyph) (x : BitVec 7), 16 ≤ x.toNat → x.toNat ≤ 25 → glyphRow l x 8 = 0) ∧
  (∀ l : List Glyph, glyphRow l 63 8 ≠ 0 ∧ ∀ row, row < 8 → glyphRow l 63 row = 0) ∧
  ∀ (s : State) (r : RenderRecord) (pre post : List Composite) (c : Composite),
    s.quiet = true → s.render = some r → s.queue = pre ++ c :: post → (∀ x ∈ pre, x.state ≠ .rendering) →
    c.state = .rendering →
    let w := min s.straps.width (193 - s.straps.fcol)
    ∃ image : List DotRow, image.length = 9 ∧
      (∀ row e, row < 9 → e < 256 →
        (image.getD row []).getD e false =
          (decide (e < 8 * w) &&
            c.layers.any fun l =>
              match l.getD (e / 8) .blank with
              | .glyph g => (glyphRow s.loadable g row).getLsbD (7 - e % 8)
              | .blank => false
              | .unprintable => false)) ∧
      exec .renderCompletion s = .next
        { s with
          clock := max s.clock (r.start + r.duration)
          queue := pre ++ { c with state := .ready } :: post
          bufA := if r.buffer = .a then { s.bufA with image := image } else s.bufA
          bufB := if r.buffer = .b then { s.bufB with image := image } else s.bufB
          render := none }
end

