-- ==== Sys2Proof/Laws/Sets.lean ====
section
/-! SUPPORT. The list operations the state is updated with: what adding once and updating the first match can do. -/

namespace Sys2Proof.Machine

/-- Everything `addOnce` can do: nothing, or a new element at the end. -/
theorem addOnce_cases {α : Type} [DecidableEq α] (a : α) (l : List α) :
    (a ∈ l ∧ addOnce a l = l) ∨ (a ∉ l ∧ addOnce a l = l ++ [a]) := by
  unfold addOnce
  split
  · exact .inl ⟨‹_›, rfl⟩
  · exact .inr ⟨‹_›, rfl⟩

@[simp] theorem addOnce_nil {α : Type} [DecidableEq α] (a : α) : addOnce a [] = [a] := by simp [addOnce]

@[simp] theorem mem_addOnce {α : Type} [DecidableEq α] (a b : α) (l : List α) : b ∈ addOnce a l ↔ b = a ∨ b ∈ l := by
  obtain ⟨h, e⟩ | ⟨-, e⟩ := addOnce_cases a l <;> rw [e]
  · constructor
    · exact .inr
    · rintro (rfl | hb)
      · exact h
      · exact hb
  · simp [or_comm]

@[simp] theorem addOnce_ne_nil {α : Type} [DecidableEq α] (a : α) (l : List α) : addOnce a l ≠ [] := by
  intro h
  have : a ∈ addOnce a l := (mem_addOnce a a l).2 (.inl rfl)
  simp [h] at this

@[simp] theorem addOnce_isEmpty {α : Type} [DecidableEq α] (a : α) (l : List α) : (addOnce a l).isEmpty = false := by
  cases h : addOnce a l with
  | nil => exact absurd h (addOnce_ne_nil a l)
  | cons _ _ => rfl

theorem addOnce_of_mem {α : Type} [DecidableEq α] {a : α} {l : List α} (h : a ∈ l) : addOnce a l = l := by
  simp [addOnce, h]

theorem addOnce_nodup {α : Type} [DecidableEq α] {a : α} {l : List α} (h : l.Nodup) : (addOnce a l).Nodup := by
  obtain ⟨-, e⟩ | ⟨ha, e⟩ := addOnce_cases a l <;> rw [e]
  · exact h
  · rw [List.nodup_append]
    exact ⟨h, by simp, by simp; intro x hx hxa; exact ha (hxa ▸ hx)⟩

@[simp] theorem updateFirst_nil {α : Type} (p : α → Bool) (f : α → α) : updateFirst p f [] = [] := rfl

@[simp] theorem updateFirst_length {α : Type} (p : α → Bool) (f : α → α) (l : List α) :
    (updateFirst p f l).length = l.length := by
  induction l with
  | nil => rfl
  | cons x xs ih => unfold updateFirst; split <;> simp [ih]

/-- Where the first match stands is known, it alone is replaced. -/
theorem updateFirst_append {α : Type} {p : α → Bool} {f : α → α} {pre post : List α} {x : α}
    (hpre : ∀ y ∈ pre, p y = false) (hx : p x = true) :
    updateFirst p f (pre ++ x :: post) = pre ++ f x :: post := by
  induction pre with
  | nil => simp [updateFirst, hx]
  | cons y ys ih => simp_all [updateFirst]

/-- Without a match nothing is replaced. -/
theorem updateFirst_of_none {α : Type} {p : α → Bool} {f : α → α} {l : List α} (h : ∀ y ∈ l, p y = false) :
    updateFirst p f l = l := by
  induction l with
  | nil => rfl
  | cons y ys ih => simp_all [updateFirst]

/-- Where the first match stands is known, `find?` gives it. -/
theorem find?_append_first {α : Type} {p : α → Bool} {pre post : List α} {x : α}
    (hpre : ∀ y ∈ pre, p y = false) (hx : p x = true) : (pre ++ x :: post).find? p = some x := by
  induction pre with
  | nil => simp [hx]
  | cons y ys ih => simp_all

end Sys2Proof.Machine
end

