-- ==== Sys2Proof/Laws/State.lean ====
section
/-! SUPPORT. What each plain update of the state leaves in each field: one lemma per field per update, each true by
definition. -/

namespace Sys2Proof.Machine

/-! ### waitUntil -/

@[simp] theorem State.waitUntil_clock (s : State) (t : Micros) : (s.waitUntil t).clock = max s.clock t := rfl
@[simp] theorem State.waitUntil_frameMoment (s : State) (t : Micros) : (s.waitUntil t).frameMoment =
    s.frameMoment := rfl
@[simp] theorem State.waitUntil_rstLow (s : State) (t : Micros) : (s.waitUntil t).rstLow = s.rstLow := rfl
@[simp] theorem State.waitUntil_straps (s : State) (t : Micros) : (s.waitUntil t).straps = s.straps := rfl
@[simp] theorem State.waitUntil_mode (s : State) (t : Micros) : (s.waitUntil t).mode = s.mode := rfl
@[simp] theorem State.waitUntil_faults (s : State) (t : Micros) : (s.waitUntil t).faults = s.faults := rfl
@[simp] theorem State.waitUntil_faultLow (s : State) (t : Micros) : (s.waitUntil t).faultLow = s.faultLow := rfl
@[simp] theorem State.waitUntil_stops (s : State) (t : Micros) : (s.waitUntil t).stops = s.stops := rfl
@[simp] theorem State.waitUntil_startInterval (s : State) (t : Micros) : (s.waitUntil t).startInterval =
    s.startInterval := rfl
@[simp] theorem State.waitUntil_formingInterval (s : State) (t : Micros) : (s.waitUntil t).formingInterval =
    s.formingInterval := rfl
@[simp] theorem State.waitUntil_inputs (s : State) (t : Micros) : (s.waitUntil t).inputs = s.inputs := rfl
@[simp] theorem State.waitUntil_inputBuffer (s : State) (t : Micros) : (s.waitUntil t).inputBuffer =
    s.inputBuffer := rfl
@[simp] theorem State.waitUntil_strobe (s : State) (t : Micros) : (s.waitUntil t).strobe = s.strobe := rfl
@[simp] theorem State.waitUntil_pd (s : State) (t : Micros) : (s.waitUntil t).pd = s.pd := rfl
@[simp] theorem State.waitUntil_pinitLowSince (s : State) (t : Micros) : (s.waitUntil t).pinitLowSince =
    s.pinitLowSince := rfl
@[simp] theorem State.waitUntil_warnings (s : State) (t : Micros) : (s.waitUntil t).warnings = s.warnings := rfl
@[simp] theorem State.waitUntil_senseRead (s : State) (t : Micros) : (s.waitUntil t).senseRead = s.senseRead := rfl
@[simp] theorem State.waitUntil_parser (s : State) (t : Micros) : (s.waitUntil t).parser = s.parser := rfl
@[simp] theorem State.waitUntil_codeTable (s : State) (t : Micros) : (s.waitUntil t).codeTable = s.codeTable := rfl
@[simp] theorem State.waitUntil_loadable (s : State) (t : Micros) : (s.waitUntil t).loadable = s.loadable := rfl
@[simp] theorem State.waitUntil_queue (s : State) (t : Micros) : (s.waitUntil t).queue = s.queue := rfl
@[simp] theorem State.waitUntil_counter (s : State) (t : Micros) : (s.waitUntil t).counter = s.counter := rfl
@[simp] theorem State.waitUntil_bufA (s : State) (t : Micros) : (s.waitUntil t).bufA = s.bufA := rfl
@[simp] theorem State.waitUntil_bufB (s : State) (t : Micros) : (s.waitUntil t).bufB = s.bufB := rfl
@[simp] theorem State.waitUntil_render (s : State) (t : Micros) : (s.waitUntil t).render = s.render := rfl
@[simp] theorem State.waitUntil_form (s : State) (t : Micros) : (s.waitUntil t).form = s.form := rfl
@[simp] theorem State.waitUntil_line (s : State) (t : Micros) : (s.waitUntil t).line = s.line := rfl
@[simp] theorem State.waitUntil_formCount (s : State) (t : Micros) : (s.waitUntil t).formCount = s.formCount := rfl
@[simp] theorem State.waitUntil_overflow (s : State) (t : Micros) : (s.waitUntil t).overflow = s.overflow := rfl
@[simp] theorem State.waitUntil_plan (s : State) (t : Micros) : (s.waitUntil t).plan = s.plan := rfl
@[simp] theorem State.waitUntil_motion (s : State) (t : Micros) : (s.waitUntil t).motion = s.motion := rfl
@[simp] theorem State.waitUntil_stepRecord (s : State) (t : Micros) : (s.waitUntil t).stepRecord = s.stepRecord := rfl
@[simp] theorem State.waitUntil_stepDrive (s : State) (t : Micros) : (s.waitUntil t).stepDrive = s.stepDrive := rfl
@[simp] theorem State.waitUntil_frameDelay (s : State) (t : Micros) : (s.waitUntil t).frameDelay = s.frameDelay := rfl
@[simp] theorem State.waitUntil_headLatch (s : State) (t : Micros) : (s.waitUntil t).headLatch = s.headLatch := rfl
@[simp] theorem State.waitUntil_pending (s : State) (t : Micros) : (s.waitUntil t).pending = s.pending := rfl

/-! ### raise -/

@[simp] theorem State.raise_clock (s : State) (w : Warning) : (s.raise w).clock = s.clock := rfl
@[simp] theorem State.raise_frameMoment (s : State) (w : Warning) : (s.raise w).frameMoment = s.frameMoment := rfl
@[simp] theorem State.raise_rstLow (s : State) (w : Warning) : (s.raise w).rstLow = s.rstLow := rfl
@[simp] theorem State.raise_straps (s : State) (w : Warning) : (s.raise w).straps = s.straps := rfl
@[simp] theorem State.raise_mode (s : State) (w : Warning) : (s.raise w).mode = s.mode := rfl
@[simp] theorem State.raise_faults (s : State) (w : Warning) : (s.raise w).faults = s.faults := rfl
@[simp] theorem State.raise_faultLow (s : State) (w : Warning) : (s.raise w).faultLow = s.faultLow := rfl
@[simp] theorem State.raise_stops (s : State) (w : Warning) : (s.raise w).stops = s.stops := rfl
@[simp] theorem State.raise_startInterval (s : State) (w : Warning) : (s.raise w).startInterval = s.startInterval := rfl
@[simp] theorem State.raise_formingInterval (s : State) (w : Warning) : (s.raise w).formingInterval =
    s.formingInterval := rfl
@[simp] theorem State.raise_inputs (s : State) (w : Warning) : (s.raise w).inputs = s.inputs := rfl
@[simp] theorem State.raise_inputBuffer (s : State) (w : Warning) : (s.raise w).inputBuffer = s.inputBuffer := rfl
@[simp] theorem State.raise_strobe (s : State) (w : Warning) : (s.raise w).strobe = s.strobe := rfl
@[simp] theorem State.raise_pd (s : State) (w : Warning) : (s.raise w).pd = s.pd := rfl
@[simp] theorem State.raise_pinitLowSince (s : State) (w : Warning) : (s.raise w).pinitLowSince = s.pinitLowSince := rfl
@[simp] theorem State.raise_warnings (s : State) (w : Warning) : (s.raise w).warnings = addOnce w s.warnings := rfl
@[simp] theorem State.raise_senseRead (s : State) (w : Warning) : (s.raise w).senseRead = s.senseRead := rfl
@[simp] theorem State.raise_parser (s : State) (w : Warning) : (s.raise w).parser = s.parser := rfl
@[simp] theorem State.raise_codeTable (s : State) (w : Warning) : (s.raise w).codeTable = s.codeTable := rfl
@[simp] theorem State.raise_loadable (s : State) (w : Warning) : (s.raise w).loadable = s.loadable := rfl
@[simp] theorem State.raise_queue (s : State) (w : Warning) : (s.raise w).queue = s.queue := rfl
@[simp] theorem State.raise_counter (s : State) (w : Warning) : (s.raise w).counter = s.counter := rfl
@[simp] theorem State.raise_bufA (s : State) (w : Warning) : (s.raise w).bufA = s.bufA := rfl
@[simp] theorem State.raise_bufB (s : State) (w : Warning) : (s.raise w).bufB = s.bufB := rfl
@[simp] theorem State.raise_render (s : State) (w : Warning) : (s.raise w).render = s.render := rfl
@[simp] theorem State.raise_form (s : State) (w : Warning) : (s.raise w).form = s.form := rfl
@[simp] theorem State.raise_line (s : State) (w : Warning) : (s.raise w).line = s.line := rfl
@[simp] theorem State.raise_formCount (s : State) (w : Warning) : (s.raise w).formCount = s.formCount := rfl
@[simp] theorem State.raise_overflow (s : State) (w : Warning) : (s.raise w).overflow = s.overflow := rfl
@[simp] theorem State.raise_plan (s : State) (w : Warning) : (s.raise w).plan = s.plan := rfl
@[simp] theorem State.raise_motion (s : State) (w : Warning) : (s.raise w).motion = s.motion := rfl
@[simp] theorem State.raise_stepRecord (s : State) (w : Warning) : (s.raise w).stepRecord = s.stepRecord := rfl
@[simp] theorem State.raise_stepDrive (s : State) (w : Warning) : (s.raise w).stepDrive = s.stepDrive := rfl
@[simp] theorem State.raise_frameDelay (s : State) (w : Warning) : (s.raise w).frameDelay = s.frameDelay := rfl
@[simp] theorem State.raise_headLatch (s : State) (w : Warning) : (s.raise w).headLatch = s.headLatch := rfl
@[simp] theorem State.raise_pending (s : State) (w : Warning) : (s.raise w).pending = s.pending := rfl

/-! ### cutoff -/

@[simp] theorem State.cutoff_clock (s : State) : (s.cutoff).clock = s.clock := rfl
@[simp] theorem State.cutoff_frameMoment (s : State) : (s.cutoff).frameMoment = s.frameMoment := rfl
@[simp] theorem State.cutoff_rstLow (s : State) : (s.cutoff).rstLow = s.rstLow := rfl
@[simp] theorem State.cutoff_straps (s : State) : (s.cutoff).straps = s.straps := rfl
@[simp] theorem State.cutoff_mode (s : State) : (s.cutoff).mode = s.mode := rfl
@[simp] theorem State.cutoff_faults (s : State) : (s.cutoff).faults = s.faults := rfl
@[simp] theorem State.cutoff_faultLow (s : State) : (s.cutoff).faultLow = true := rfl
@[simp] theorem State.cutoff_stops (s : State) : (s.cutoff).stops = s.stops := rfl
@[simp] theorem State.cutoff_startInterval (s : State) : (s.cutoff).startInterval = s.startInterval := rfl
@[simp] theorem State.cutoff_formingInterval (s : State) : (s.cutoff).formingInterval = s.formingInterval := rfl
@[simp] theorem State.cutoff_inputs (s : State) : (s.cutoff).inputs = s.inputs := rfl
@[simp] theorem State.cutoff_inputBuffer (s : State) : (s.cutoff).inputBuffer = s.inputBuffer := rfl
@[simp] theorem State.cutoff_strobe (s : State) : (s.cutoff).strobe = s.strobe := rfl
@[simp] theorem State.cutoff_pd (s : State) : (s.cutoff).pd = s.pd := rfl
@[simp] theorem State.cutoff_pinitLowSince (s : State) : (s.cutoff).pinitLowSince = s.pinitLowSince := rfl
@[simp] theorem State.cutoff_warnings (s : State) : (s.cutoff).warnings = s.warnings := rfl
@[simp] theorem State.cutoff_senseRead (s : State) : (s.cutoff).senseRead = s.senseRead := rfl
@[simp] theorem State.cutoff_parser (s : State) : (s.cutoff).parser = s.parser := rfl
@[simp] theorem State.cutoff_codeTable (s : State) : (s.cutoff).codeTable = s.codeTable := rfl
@[simp] theorem State.cutoff_loadable (s : State) : (s.cutoff).loadable = s.loadable := rfl
@[simp] theorem State.cutoff_queue (s : State) : (s.cutoff).queue = s.queue := rfl
@[simp] theorem State.cutoff_counter (s : State) : (s.cutoff).counter = s.counter := rfl
@[simp] theorem State.cutoff_bufA (s : State) : (s.cutoff).bufA = s.bufA := rfl
@[simp] theorem State.cutoff_bufB (s : State) : (s.cutoff).bufB = s.bufB := rfl
@[simp] theorem State.cutoff_render (s : State) : (s.cutoff).render = s.render := rfl
@[simp] theorem State.cutoff_form (s : State) : (s.cutoff).form = s.form := rfl
@[simp] theorem State.cutoff_line (s : State) : (s.cutoff).line = s.line := rfl
@[simp] theorem State.cutoff_formCount (s : State) : (s.cutoff).formCount = s.formCount := rfl
@[simp] theorem State.cutoff_overflow (s : State) : (s.cutoff).overflow = s.overflow := rfl
@[simp] theorem State.cutoff_plan (s : State) : (s.cutoff).plan = s.plan := rfl
@[simp] theorem State.cutoff_motion (s : State) : (s.cutoff).motion = s.motion.map fun m => m.cut s.clock := rfl
@[simp] theorem State.cutoff_stepRecord (s : State) : (s.cutoff).stepRecord = s.stepRecord := rfl
@[simp] theorem State.cutoff_stepDrive (s : State) : (s.cutoff).stepDrive = .held := rfl
@[simp] theorem State.cutoff_frameDelay (s : State) : (s.cutoff).frameDelay = s.frameDelay := rfl
@[simp] theorem State.cutoff_headLatch (s : State) : (s.cutoff).headLatch = s.headLatch := rfl
@[simp] theorem State.cutoff_pending (s : State) : (s.cutoff).pending = s.pending := rfl

/-! ### recordFault -/

@[simp] theorem State.recordFault_clock (s : State) (f : FaultKind) : (s.recordFault f).clock = s.clock := rfl
@[simp] theorem State.recordFault_frameMoment (s : State) (f : FaultKind) : (s.recordFault f).frameMoment =
    s.frameMoment := rfl
@[simp] theorem State.recordFault_rstLow (s : State) (f : FaultKind) : (s.recordFault f).rstLow = s.rstLow := rfl
@[simp] theorem State.recordFault_straps (s : State) (f : FaultKind) : (s.recordFault f).straps = s.straps := rfl
@[simp] theorem State.recordFault_mode (s : State) (f : FaultKind) : (s.recordFault f).mode = s.mode := rfl
@[simp] theorem State.recordFault_faults (s : State) (f : FaultKind) : (s.recordFault f).faults =
    addOnce f s.faults := rfl
@[simp] theorem State.recordFault_faultLow (s : State) (f : FaultKind) : (s.recordFault f).faultLow = true := rfl
@[simp] theorem State.recordFault_stops (s : State) (f : FaultKind) : (s.recordFault f).stops = s.stops := rfl
@[simp] theorem State.recordFault_startInterval (s : State) (f : FaultKind) : (s.recordFault f).startInterval =
    s.startInterval := rfl
@[simp] theorem State.recordFault_formingInterval (s : State) (f : FaultKind) : (s.recordFault f).formingInterval =
    s.formingInterval := rfl
@[simp] theorem State.recordFault_inputs (s : State) (f : FaultKind) : (s.recordFault f).inputs = s.inputs := rfl
@[simp] theorem State.recordFault_inputBuffer (s : State) (f : FaultKind) : (s.recordFault f).inputBuffer =
    s.inputBuffer := rfl
@[simp] theorem State.recordFault_strobe (s : State) (f : FaultKind) : (s.recordFault f).strobe = s.strobe := rfl
@[simp] theorem State.recordFault_pd (s : State) (f : FaultKind) : (s.recordFault f).pd = s.pd := rfl
@[simp] theorem State.recordFault_pinitLowSince (s : State) (f : FaultKind) : (s.recordFault f).pinitLowSince =
    s.pinitLowSince := rfl
@[simp] theorem State.recordFault_warnings (s : State) (f : FaultKind) : (s.recordFault f).warnings = s.warnings := rfl
@[simp] theorem State.recordFault_senseRead (s : State) (f : FaultKind) : (s.recordFault f).senseRead =
    s.senseRead := rfl
@[simp] theorem State.recordFault_parser (s : State) (f : FaultKind) : (s.recordFault f).parser = s.parser := rfl
@[simp] theorem State.recordFault_codeTable (s : State) (f : FaultKind) : (s.recordFault f).codeTable =
    s.codeTable := rfl
@[simp] theorem State.recordFault_loadable (s : State) (f : FaultKind) : (s.recordFault f).loadable = s.loadable := rfl
@[simp] theorem State.recordFault_queue (s : State) (f : FaultKind) : (s.recordFault f).queue = s.queue := rfl
@[simp] theorem State.recordFault_counter (s : State) (f : FaultKind) : (s.recordFault f).counter = s.counter := rfl
@[simp] theorem State.recordFault_bufA (s : State) (f : FaultKind) : (s.recordFault f).bufA = s.bufA := rfl
@[simp] theorem State.recordFault_bufB (s : State) (f : FaultKind) : (s.recordFault f).bufB = s.bufB := rfl
@[simp] theorem State.recordFault_render (s : State) (f : FaultKind) : (s.recordFault f).render = s.render := rfl
@[simp] theorem State.recordFault_form (s : State) (f : FaultKind) : (s.recordFault f).form = s.form := rfl
@[simp] theorem State.recordFault_line (s : State) (f : FaultKind) : (s.recordFault f).line = s.line := rfl
@[simp] theorem State.recordFault_formCount (s : State) (f : FaultKind) : (s.recordFault f).formCount =
    s.formCount := rfl
@[simp] theorem State.recordFault_overflow (s : State) (f : FaultKind) : (s.recordFault f).overflow = s.overflow := rfl
@[simp] theorem State.recordFault_plan (s : State) (f : FaultKind) : (s.recordFault f).plan = s.plan := rfl
@[simp] theorem State.recordFault_motion (s : State) (f : FaultKind) : (s.recordFault f).motion =
    s.motion.map fun m => m.cut s.clock := rfl
@[simp] theorem State.recordFault_stepRecord (s : State) (f : FaultKind) : (s.recordFault f).stepRecord =
    s.stepRecord := rfl
@[simp] theorem State.recordFault_stepDrive (s : State) (f : FaultKind) : (s.recordFault f).stepDrive = .held := rfl
@[simp] theorem State.recordFault_frameDelay (s : State) (f : FaultKind) : (s.recordFault f).frameDelay =
    s.frameDelay := rfl
@[simp] theorem State.recordFault_headLatch (s : State) (f : FaultKind) : (s.recordFault f).headLatch =
    s.headLatch := rfl
@[simp] theorem State.recordFault_pending (s : State) (f : FaultKind) : (s.recordFault f).pending = s.pending := rfl

/-! ### removeFaults -/

@[simp] theorem State.removeFaults_clock (s : State) (p : FaultKind → Bool) : (s.removeFaults p).clock = s.clock := rfl
@[simp] theorem State.removeFaults_frameMoment (s : State) (p : FaultKind → Bool) : (s.removeFaults p).frameMoment =
    s.frameMoment := rfl
@[simp] theorem State.removeFaults_rstLow (s : State) (p : FaultKind → Bool) : (s.removeFaults p).rstLow =
    s.rstLow := rfl
@[simp] theorem State.removeFaults_straps (s : State) (p : FaultKind → Bool) : (s.removeFaults p).straps =
    s.straps := rfl
@[simp] theorem State.removeFaults_mode (s : State) (p : FaultKind → Bool) : (s.removeFaults p).mode = s.mode := rfl
@[simp] theorem State.removeFaults_faults (s : State) (p : FaultKind → Bool) : (s.removeFaults p).faults =
    s.faults.filter fun f => !p f := rfl
@[simp] theorem State.removeFaults_faultLow (s : State) (p : FaultKind → Bool) : (s.removeFaults p).faultLow =
    s.faultLow := rfl
@[simp] theorem State.removeFaults_stops (s : State) (p : FaultKind → Bool) : (s.removeFaults p).stops = s.stops := rfl
@[simp] theorem State.removeFaults_startInterval (s : State) (p : FaultKind → Bool) : (s.removeFaults p).startInterval =
    s.startInterval := rfl
@[simp] theorem State.removeFaults_formingInterval (s : State) (p : FaultKind → Bool) : (s.removeFaults p).formingInterval =
    s.formingInterval := rfl
@[simp] theorem State.removeFaults_inputs (s : State) (p : FaultKind → Bool) : (s.removeFaults p).inputs =
    s.inputs := rfl
@[simp] theorem State.removeFaults_inputBuffer (s : State) (p : FaultKind → Bool) : (s.removeFaults p).inputBuffer =
    s.inputBuffer := rfl
@[simp] theorem State.removeFaults_strobe (s : State) (p : FaultKind → Bool) : (s.removeFaults p).strobe =
    s.strobe := rfl
@[simp] theorem State.removeFaults_pd (s : State) (p : FaultKind → Bool) : (s.removeFaults p).pd = s.pd := rfl
@[simp] theorem State.removeFaults_pinitLowSince (s : State) (p : FaultKind → Bool) : (s.removeFaults p).pinitLowSince =
    s.pinitLowSince := rfl
@[simp] theorem State.removeFaults_warnings (s : State) (p : FaultKind → Bool) : (s.removeFaults p).warnings =
    s.warnings := rfl
@[simp] theorem State.removeFaults_senseRead (s : State) (p : FaultKind → Bool) : (s.removeFaults p).senseRead =
    s.senseRead := rfl
@[simp] theorem State.removeFaults_parser (s : State) (p : FaultKind → Bool) : (s.removeFaults p).parser =
    s.parser := rfl
@[simp] theorem State.removeFaults_codeTable (s : State) (p : FaultKind → Bool) : (s.removeFaults p).codeTable =
    s.codeTable := rfl
@[simp] theorem State.removeFaults_loadable (s : State) (p : FaultKind → Bool) : (s.removeFaults p).loadable =
    s.loadable := rfl
@[simp] theorem State.removeFaults_queue (s : State) (p : FaultKind → Bool) : (s.removeFaults p).queue =
    if s.faults.contains .dataCheck && p .dataCheck then unblock s.queue else s.queue := rfl
@[simp] theorem State.removeFaults_counter (s : State) (p : FaultKind → Bool) : (s.removeFaults p).counter =
    s.counter := rfl
@[simp] theorem State.removeFaults_bufA (s : State) (p : FaultKind → Bool) : (s.removeFaults p).bufA = s.bufA := rfl
@[simp] theorem State.removeFaults_bufB (s : State) (p : FaultKind → Bool) : (s.removeFaults p).bufB = s.bufB := rfl
@[simp] theorem State.removeFaults_render (s : State) (p : FaultKind → Bool) : (s.removeFaults p).render =
    s.render := rfl
@[simp] theorem State.removeFaults_form (s : State) (p : FaultKind → Bool) : (s.removeFaults p).form = s.form := rfl
@[simp] theorem State.removeFaults_line (s : State) (p : FaultKind → Bool) : (s.removeFaults p).line = s.line := rfl
@[simp] theorem State.removeFaults_formCount (s : State) (p : FaultKind → Bool) : (s.removeFaults p).formCount =
    s.formCount := rfl
@[simp] theorem State.removeFaults_overflow (s : State) (p : FaultKind → Bool) : (s.removeFaults p).overflow =
    s.overflow := rfl
@[simp] theorem State.removeFaults_plan (s : State) (p : FaultKind → Bool) : (s.removeFaults p).plan = s.plan := rfl
@[simp] theorem State.removeFaults_motion (s : State) (p : FaultKind → Bool) : (s.removeFaults p).motion =
    s.motion := rfl
@[simp] theorem State.removeFaults_stepRecord (s : State) (p : FaultKind → Bool) : (s.removeFaults p).stepRecord =
    s.stepRecord := rfl
@[simp] theorem State.removeFaults_stepDrive (s : State) (p : FaultKind → Bool) : (s.removeFaults p).stepDrive =
    s.stepDrive := rfl
@[simp] theorem State.removeFaults_frameDelay (s : State) (p : FaultKind → Bool) : (s.removeFaults p).frameDelay =
    s.frameDelay := rfl
@[simp] theorem State.removeFaults_headLatch (s : State) (p : FaultKind → Bool) : (s.removeFaults p).headLatch =
    s.headLatch := rfl
@[simp] theorem State.removeFaults_pending (s : State) (p : FaultKind → Bool) : (s.removeFaults p).pending =
    s.pending := rfl

/-! ### createComposite -/

@[simp] theorem State.createComposite_clock (s : State) : (s.createComposite).clock = s.clock := rfl
@[simp] theorem State.createComposite_frameMoment (s : State) : (s.createComposite).frameMoment = s.frameMoment := rfl
@[simp] theorem State.createComposite_rstLow (s : State) : (s.createComposite).rstLow = s.rstLow := rfl
@[simp] theorem State.createComposite_straps (s : State) : (s.createComposite).straps = s.straps := rfl
@[simp] theorem State.createComposite_mode (s : State) : (s.createComposite).mode = s.mode := rfl
@[simp] theorem State.createComposite_faults (s : State) : (s.createComposite).faults = s.faults := rfl
@[simp] theorem State.createComposite_faultLow (s : State) : (s.createComposite).faultLow = s.faultLow := rfl
@[simp] theorem State.createComposite_stops (s : State) : (s.createComposite).stops = s.stops := rfl
@[simp] theorem State.createComposite_startInterval (s : State) : (s.createComposite).startInterval =
    s.startInterval := rfl
@[simp] theorem State.createComposite_formingInterval (s : State) : (s.createComposite).formingInterval =
    s.formingInterval := rfl
@[simp] theorem State.createComposite_inputs (s : State) : (s.createComposite).inputs = s.inputs := rfl
@[simp] theorem State.createComposite_inputBuffer (s : State) : (s.createComposite).inputBuffer = s.inputBuffer := rfl
@[simp] theorem State.createComposite_strobe (s : State) : (s.createComposite).strobe = s.strobe := rfl
@[simp] theorem State.createComposite_pd (s : State) : (s.createComposite).pd = s.pd := rfl
@[simp] theorem State.createComposite_pinitLowSince (s : State) : (s.createComposite).pinitLowSince =
    s.pinitLowSince := rfl
@[simp] theorem State.createComposite_warnings (s : State) : (s.createComposite).warnings = s.warnings := rfl
@[simp] theorem State.createComposite_senseRead (s : State) : (s.createComposite).senseRead = s.senseRead := rfl
@[simp] theorem State.createComposite_parser (s : State) : (s.createComposite).parser = s.parser := rfl
@[simp] theorem State.createComposite_codeTable (s : State) : (s.createComposite).codeTable = s.codeTable := rfl
@[simp] theorem State.createComposite_loadable (s : State) : (s.createComposite).loadable = s.loadable := rfl
@[simp] theorem State.createComposite_queue (s : State) : (s.createComposite).queue =
    s.queue ++ [{ seq := s.counter }] := rfl
@[simp] theorem State.createComposite_counter (s : State) : (s.createComposite).counter = s.counter + 1 := rfl
@[simp] theorem State.createComposite_bufA (s : State) : (s.createComposite).bufA = s.bufA := rfl
@[simp] theorem State.createComposite_bufB (s : State) : (s.createComposite).bufB = s.bufB := rfl
@[simp] theorem State.createComposite_render (s : State) : (s.createComposite).render = s.render := rfl
@[simp] theorem State.createComposite_form (s : State) : (s.createComposite).form = s.form := rfl
@[simp] theorem State.createComposite_line (s : State) : (s.createComposite).line = s.line := rfl
@[simp] theorem State.createComposite_formCount (s : State) : (s.createComposite).formCount = s.formCount := rfl
@[simp] theorem State.createComposite_overflow (s : State) : (s.createComposite).overflow = s.overflow := rfl
@[simp] theorem State.createComposite_plan (s : State) : (s.createComposite).plan = s.plan := rfl
@[simp] theorem State.createComposite_motion (s : State) : (s.createComposite).motion = s.motion := rfl
@[simp] theorem State.createComposite_stepRecord (s : State) : (s.createComposite).stepRecord = s.stepRecord := rfl
@[simp] theorem State.createComposite_stepDrive (s : State) : (s.createComposite).stepDrive = s.stepDrive := rfl
@[simp] theorem State.createComposite_frameDelay (s : State) : (s.createComposite).frameDelay = s.frameDelay := rfl
@[simp] theorem State.createComposite_headLatch (s : State) : (s.createComposite).headLatch = s.headLatch := rfl
@[simp] theorem State.createComposite_pending (s : State) : (s.createComposite).pending = s.pending := rfl

/-! ### onOpen -/

@[simp] theorem State.onOpen_clock (s : State) (f : Composite → Composite) : (s.onOpen f).clock = s.clock := rfl
@[simp] theorem State.onOpen_frameMoment (s : State) (f : Composite → Composite) : (s.onOpen f).frameMoment =
    s.frameMoment := rfl
@[simp] theorem State.onOpen_rstLow (s : State) (f : Composite → Composite) : (s.onOpen f).rstLow = s.rstLow := rfl
@[simp] theorem State.onOpen_straps (s : State) (f : Composite → Composite) : (s.onOpen f).straps = s.straps := rfl
@[simp] theorem State.onOpen_mode (s : State) (f : Composite → Composite) : (s.onOpen f).mode = s.mode := rfl
@[simp] theorem State.onOpen_faults (s : State) (f : Composite → Composite) : (s.onOpen f).faults = s.faults := rfl
@[simp] theorem State.onOpen_faultLow (s : State) (f : Composite → Composite) : (s.onOpen f).faultLow =
    s.faultLow := rfl
@[simp] theorem State.onOpen_stops (s : State) (f : Composite → Composite) : (s.onOpen f).stops = s.stops := rfl
@[simp] theorem State.onOpen_startInterval (s : State) (f : Composite → Composite) : (s.onOpen f).startInterval =
    s.startInterval := rfl
@[simp] theorem State.onOpen_formingInterval (s : State) (f : Composite → Composite) : (s.onOpen f).formingInterval =
    s.formingInterval := rfl
@[simp] theorem State.onOpen_inputs (s : State) (f : Composite → Composite) : (s.onOpen f).inputs = s.inputs := rfl
@[simp] theorem State.onOpen_inputBuffer (s : State) (f : Composite → Composite) : (s.onOpen f).inputBuffer =
    s.inputBuffer := rfl
@[simp] theorem State.onOpen_strobe (s : State) (f : Composite → Composite) : (s.onOpen f).strobe = s.strobe := rfl
@[simp] theorem State.onOpen_pd (s : State) (f : Composite → Composite) : (s.onOpen f).pd = s.pd := rfl
@[simp] theorem State.onOpen_pinitLowSince (s : State) (f : Composite → Composite) : (s.onOpen f).pinitLowSince =
    s.pinitLowSince := rfl
@[simp] theorem State.onOpen_warnings (s : State) (f : Composite → Composite) : (s.onOpen f).warnings =
    s.warnings := rfl
@[simp] theorem State.onOpen_senseRead (s : State) (f : Composite → Composite) : (s.onOpen f).senseRead =
    s.senseRead := rfl
@[simp] theorem State.onOpen_parser (s : State) (f : Composite → Composite) : (s.onOpen f).parser = s.parser := rfl
@[simp] theorem State.onOpen_codeTable (s : State) (f : Composite → Composite) : (s.onOpen f).codeTable =
    s.codeTable := rfl
@[simp] theorem State.onOpen_loadable (s : State) (f : Composite → Composite) : (s.onOpen f).loadable =
    s.loadable := rfl
@[simp] theorem State.onOpen_queue (s : State) (f : Composite → Composite) : (s.onOpen f).queue =
    updateFirst (fun c => c.state == .opened) f s.queue := rfl
@[simp] theorem State.onOpen_counter (s : State) (f : Composite → Composite) : (s.onOpen f).counter = s.counter := rfl
@[simp] theorem State.onOpen_bufA (s : State) (f : Composite → Composite) : (s.onOpen f).bufA = s.bufA := rfl
@[simp] theorem State.onOpen_bufB (s : State) (f : Composite → Composite) : (s.onOpen f).bufB = s.bufB := rfl
@[simp] theorem State.onOpen_render (s : State) (f : Composite → Composite) : (s.onOpen f).render = s.render := rfl
@[simp] theorem State.onOpen_form (s : State) (f : Composite → Composite) : (s.onOpen f).form = s.form := rfl
@[simp] theorem State.onOpen_line (s : State) (f : Composite → Composite) : (s.onOpen f).line = s.line := rfl
@[simp] theorem State.onOpen_formCount (s : State) (f : Composite → Composite) : (s.onOpen f).formCount =
    s.formCount := rfl
@[simp] theorem State.onOpen_overflow (s : State) (f : Composite → Composite) : (s.onOpen f).overflow =
    s.overflow := rfl
@[simp] theorem State.onOpen_plan (s : State) (f : Composite → Composite) : (s.onOpen f).plan = s.plan := rfl
@[simp] theorem State.onOpen_motion (s : State) (f : Composite → Composite) : (s.onOpen f).motion = s.motion := rfl
@[simp] theorem State.onOpen_stepRecord (s : State) (f : Composite → Composite) : (s.onOpen f).stepRecord =
    s.stepRecord := rfl
@[simp] theorem State.onOpen_stepDrive (s : State) (f : Composite → Composite) : (s.onOpen f).stepDrive =
    s.stepDrive := rfl
@[simp] theorem State.onOpen_frameDelay (s : State) (f : Composite → Composite) : (s.onOpen f).frameDelay =
    s.frameDelay := rfl
@[simp] theorem State.onOpen_headLatch (s : State) (f : Composite → Composite) : (s.onOpen f).headLatch =
    s.headLatch := rfl
@[simp] theorem State.onOpen_pending (s : State) (f : Composite → Composite) : (s.onOpen f).pending = s.pending := rfl

/-! ### dropMotion -/

@[simp] theorem State.dropMotion_clock (s : State) : (s.dropMotion).clock = s.clock := rfl
@[simp] theorem State.dropMotion_frameMoment (s : State) : (s.dropMotion).frameMoment = s.frameMoment := rfl
@[simp] theorem State.dropMotion_rstLow (s : State) : (s.dropMotion).rstLow = s.rstLow := rfl
@[simp] theorem State.dropMotion_straps (s : State) : (s.dropMotion).straps = s.straps := rfl
@[simp] theorem State.dropMotion_mode (s : State) : (s.dropMotion).mode = s.mode := rfl
@[simp] theorem State.dropMotion_faults (s : State) : (s.dropMotion).faults = s.faults := rfl
@[simp] theorem State.dropMotion_faultLow (s : State) : (s.dropMotion).faultLow = s.faultLow := rfl
@[simp] theorem State.dropMotion_stops (s : State) : (s.dropMotion).stops = s.stops := rfl
@[simp] theorem State.dropMotion_startInterval (s : State) : (s.dropMotion).startInterval = s.startInterval := rfl
@[simp] theorem State.dropMotion_formingInterval (s : State) : (s.dropMotion).formingInterval = s.formingInterval := rfl
@[simp] theorem State.dropMotion_inputs (s : State) : (s.dropMotion).inputs = s.inputs := rfl
@[simp] theorem State.dropMotion_inputBuffer (s : State) : (s.dropMotion).inputBuffer = s.inputBuffer := rfl
@[simp] theorem State.dropMotion_strobe (s : State) : (s.dropMotion).strobe = s.strobe := rfl
@[simp] theorem State.dropMotion_pd (s : State) : (s.dropMotion).pd = s.pd := rfl
@[simp] theorem State.dropMotion_pinitLowSince (s : State) : (s.dropMotion).pinitLowSince = s.pinitLowSince := rfl
@[simp] theorem State.dropMotion_warnings (s : State) : (s.dropMotion).warnings = s.warnings := rfl
@[simp] theorem State.dropMotion_senseRead (s : State) : (s.dropMotion).senseRead = s.senseRead := rfl
@[simp] theorem State.dropMotion_parser (s : State) : (s.dropMotion).parser = s.parser := rfl
@[simp] theorem State.dropMotion_codeTable (s : State) : (s.dropMotion).codeTable = s.codeTable := rfl
@[simp] theorem State.dropMotion_loadable (s : State) : (s.dropMotion).loadable = s.loadable := rfl
@[simp] theorem State.dropMotion_queue (s : State) : (s.dropMotion).queue = s.queue := rfl
@[simp] theorem State.dropMotion_counter (s : State) : (s.dropMotion).counter = s.counter := rfl
@[simp] theorem State.dropMotion_bufA (s : State) : (s.dropMotion).bufA = s.bufA := rfl
@[simp] theorem State.dropMotion_bufB (s : State) : (s.dropMotion).bufB = s.bufB := rfl
@[simp] theorem State.dropMotion_render (s : State) : (s.dropMotion).render = s.render := rfl
@[simp] theorem State.dropMotion_form (s : State) : (s.dropMotion).form = s.form := rfl
@[simp] theorem State.dropMotion_line (s : State) : (s.dropMotion).line = s.line := rfl
@[simp] theorem State.dropMotion_formCount (s : State) : (s.dropMotion).formCount = s.formCount := rfl
@[simp] theorem State.dropMotion_overflow (s : State) : (s.dropMotion).overflow = s.overflow := rfl
@[simp] theorem State.dropMotion_plan (s : State) : (s.dropMotion).plan = none := rfl
@[simp] theorem State.dropMotion_motion (s : State) : (s.dropMotion).motion = none := rfl
@[simp] theorem State.dropMotion_stepRecord (s : State) : (s.dropMotion).stepRecord = s.stepRecord := rfl
@[simp] theorem State.dropMotion_stepDrive (s : State) : (s.dropMotion).stepDrive = .held := rfl
@[simp] theorem State.dropMotion_frameDelay (s : State) : (s.dropMotion).frameDelay = none := rfl
@[simp] theorem State.dropMotion_headLatch (s : State) : (s.dropMotion).headLatch = s.headLatch := rfl
@[simp] theorem State.dropMotion_pending (s : State) : (s.dropMotion).pending = s.pending := rfl

/-! ### beginMotion -/

@[simp] theorem State.beginMotion_clock (s : State) (feed firing : Bool) (a : Action) : (s.beginMotion feed firing a).clock =
    s.clock := rfl
@[simp] theorem State.beginMotion_frameMoment (s : State) (feed firing : Bool) (a : Action) : (s.beginMotion feed firing a).frameMoment =
    s.frameMoment := rfl
@[simp] theorem State.beginMotion_rstLow (s : State) (feed firing : Bool) (a : Action) : (s.beginMotion feed firing a).rstLow =
    s.rstLow := rfl
@[simp] theorem State.beginMotion_straps (s : State) (feed firing : Bool) (a : Action) : (s.beginMotion feed firing a).straps =
    s.straps := rfl
@[simp] theorem State.beginMotion_mode (s : State) (feed firing : Bool) (a : Action) : (s.beginMotion feed firing a).mode =
    s.mode := rfl
@[simp] theorem State.beginMotion_faults (s : State) (feed firing : Bool) (a : Action) : (s.beginMotion feed firing a).faults =
    s.faults := rfl
@[simp] theorem State.beginMotion_faultLow (s : State) (feed firing : Bool) (a : Action) : (s.beginMotion feed firing a).faultLow =
    s.faultLow := rfl
@[simp] theorem State.beginMotion_stops (s : State) (feed firing : Bool) (a : Action) : (s.beginMotion feed firing a).stops =
    s.stops := rfl
@[simp] theorem State.beginMotion_startInterval (s : State) (feed firing : Bool) (a : Action) : (s.beginMotion feed firing a).startInterval =
    s.startInterval := rfl
@[simp] theorem State.beginMotion_formingInterval (s : State) (feed firing : Bool) (a : Action) : (s.beginMotion feed firing a).formingInterval =
    s.formingInterval := rfl
@[simp] theorem State.beginMotion_inputs (s : State) (feed firing : Bool) (a : Action) : (s.beginMotion feed firing a).inputs =
    s.inputs := rfl
@[simp] theorem State.beginMotion_inputBuffer (s : State) (feed firing : Bool) (a : Action) : (s.beginMotion feed firing a).inputBuffer =
    s.inputBuffer := rfl
@[simp] theorem State.beginMotion_strobe (s : State) (feed firing : Bool) (a : Action) : (s.beginMotion feed firing a).strobe =
    s.strobe := rfl
@[simp] theorem State.beginMotion_pd (s : State) (feed firing : Bool) (a : Action) : (s.beginMotion feed firing a).pd =
    s.pd := rfl
@[simp] theorem State.beginMotion_pinitLowSince (s : State) (feed firing : Bool) (a : Action) : (s.beginMotion feed firing a).pinitLowSince =
    s.pinitLowSince := rfl
@[simp] theorem State.beginMotion_warnings (s : State) (feed firing : Bool) (a : Action) : (s.beginMotion feed firing a).warnings =
    if s.form.channelAbsent s.line a then addOnce .channelAbsent s.warnings else s.warnings := rfl
@[simp] theorem State.beginMotion_senseRead (s : State) (feed firing : Bool) (a : Action) : (s.beginMotion feed firing a).senseRead =
    s.senseRead := rfl
@[simp] theorem State.beginMotion_parser (s : State) (feed firing : Bool) (a : Action) : (s.beginMotion feed firing a).parser =
    s.parser := rfl
@[simp] theorem State.beginMotion_codeTable (s : State) (feed firing : Bool) (a : Action) : (s.beginMotion feed firing a).codeTable =
    s.codeTable := rfl
@[simp] theorem State.beginMotion_loadable (s : State) (feed firing : Bool) (a : Action) : (s.beginMotion feed firing a).loadable =
    s.loadable := rfl
@[simp] theorem State.beginMotion_queue (s : State) (feed firing : Bool) (a : Action) : (s.beginMotion feed firing a).queue =
    s.queue := rfl
@[simp] theorem State.beginMotion_counter (s : State) (feed firing : Bool) (a : Action) : (s.beginMotion feed firing a).counter =
    s.counter := rfl
@[simp] theorem State.beginMotion_bufA (s : State) (feed firing : Bool) (a : Action) : (s.beginMotion feed firing a).bufA =
    s.bufA := rfl
@[simp] theorem State.beginMotion_bufB (s : State) (feed firing : Bool) (a : Action) : (s.beginMotion feed firing a).bufB =
    s.bufB := rfl
@[simp] theorem State.beginMotion_render (s : State) (feed firing : Bool) (a : Action) : (s.beginMotion feed firing a).render =
    s.render := rfl
@[simp] theorem State.beginMotion_form (s : State) (feed firing : Bool) (a : Action) : (s.beginMotion feed firing a).form =
    s.form := rfl
@[simp] theorem State.beginMotion_line (s : State) (feed firing : Bool) (a : Action) : (s.beginMotion feed firing a).line =
    s.line := rfl
@[simp] theorem State.beginMotion_formCount (s : State) (feed firing : Bool) (a : Action) : (s.beginMotion feed firing a).formCount =
    s.formCount := rfl
@[simp] theorem State.beginMotion_overflow (s : State) (feed firing : Bool) (a : Action) : (s.beginMotion feed firing a).overflow =
    s.overflow := rfl
@[simp] theorem State.beginMotion_plan (s : State) (feed firing : Bool) (a : Action) : (s.beginMotion feed firing a).plan =
    some (s.form.planFor s.line s.overflow a) := rfl
@[simp] theorem State.beginMotion_motion (s : State) (feed firing : Bool) (a : Action) : (s.beginMotion feed firing a).motion =
    some { feed := feed, distance := (s.form.planFor s.line s.overflow a).distance, firing := firing } := rfl
@[simp] theorem State.beginMotion_stepRecord (s : State) (feed firing : Bool) (a : Action) : (s.beginMotion feed firing a).stepRecord =
    s.stepRecord := rfl
@[simp] theorem State.beginMotion_stepDrive (s : State) (feed firing : Bool) (a : Action) : (s.beginMotion feed firing a).stepDrive =
    .held := rfl
@[simp] theorem State.beginMotion_frameDelay (s : State) (feed firing : Bool) (a : Action) : (s.beginMotion feed firing a).frameDelay =
    if s.frameMoment then some s.clock else none := rfl
@[simp] theorem State.beginMotion_headLatch (s : State) (feed firing : Bool) (a : Action) : (s.beginMotion feed firing a).headLatch =
    s.headLatch := rfl
@[simp] theorem State.beginMotion_pending (s : State) (feed firing : Bool) (a : Action) : (s.beginMotion feed firing a).pending =
    s.pending := rfl

/-! ### topOfForm -/

@[simp] theorem State.topOfForm_clock (s : State) : (s.topOfForm).clock = s.clock := rfl
@[simp] theorem State.topOfForm_frameMoment (s : State) : (s.topOfForm).frameMoment = s.frameMoment := rfl
@[simp] theorem State.topOfForm_rstLow (s : State) : (s.topOfForm).rstLow = s.rstLow := rfl
@[simp] theorem State.topOfForm_straps (s : State) : (s.topOfForm).straps = s.straps := rfl
@[simp] theorem State.topOfForm_mode (s : State) : (s.topOfForm).mode = s.mode := rfl
@[simp] theorem State.topOfForm_faults (s : State) : (s.topOfForm).faults = s.faults := rfl
@[simp] theorem State.topOfForm_faultLow (s : State) : (s.topOfForm).faultLow = s.faultLow := rfl
@[simp] theorem State.topOfForm_stops (s : State) : (s.topOfForm).stops = s.stops := rfl
@[simp] theorem State.topOfForm_startInterval (s : State) : (s.topOfForm).startInterval = s.startInterval := rfl
@[simp] theorem State.topOfForm_formingInterval (s : State) : (s.topOfForm).formingInterval = s.formingInterval := rfl
@[simp] theorem State.topOfForm_inputs (s : State) : (s.topOfForm).inputs = s.inputs := rfl
@[simp] theorem State.topOfForm_inputBuffer (s : State) : (s.topOfForm).inputBuffer = s.inputBuffer := rfl
@[simp] theorem State.topOfForm_strobe (s : State) : (s.topOfForm).strobe = s.strobe := rfl
@[simp] theorem State.topOfForm_pd (s : State) : (s.topOfForm).pd = s.pd := rfl
@[simp] theorem State.topOfForm_pinitLowSince (s : State) : (s.topOfForm).pinitLowSince = s.pinitLowSince := rfl
@[simp] theorem State.topOfForm_warnings (s : State) : (s.topOfForm).warnings = s.warnings := rfl
@[simp] theorem State.topOfForm_senseRead (s : State) : (s.topOfForm).senseRead = s.senseRead := rfl
@[simp] theorem State.topOfForm_parser (s : State) : (s.topOfForm).parser = s.parser := rfl
@[simp] theorem State.topOfForm_codeTable (s : State) : (s.topOfForm).codeTable = s.codeTable := rfl
@[simp] theorem State.topOfForm_loadable (s : State) : (s.topOfForm).loadable = s.loadable := rfl
@[simp] theorem State.topOfForm_queue (s : State) : (s.topOfForm).queue = s.queue := rfl
@[simp] theorem State.topOfForm_counter (s : State) : (s.topOfForm).counter = s.counter := rfl
@[simp] theorem State.topOfForm_bufA (s : State) : (s.topOfForm).bufA = s.bufA := rfl
@[simp] theorem State.topOfForm_bufB (s : State) : (s.topOfForm).bufB = s.bufB := rfl
@[simp] theorem State.topOfForm_render (s : State) : (s.topOfForm).render = s.render := rfl
@[simp] theorem State.topOfForm_form (s : State) : (s.topOfForm).form = s.form := rfl
@[simp] theorem State.topOfForm_line (s : State) : (s.topOfForm).line = 0 := rfl
@[simp] theorem State.topOfForm_formCount (s : State) : (s.topOfForm).formCount = 0 := rfl
@[simp] theorem State.topOfForm_overflow (s : State) : (s.topOfForm).overflow = false := rfl
@[simp] theorem State.topOfForm_plan (s : State) : (s.topOfForm).plan = s.plan := rfl
@[simp] theorem State.topOfForm_motion (s : State) : (s.topOfForm).motion = s.motion := rfl
@[simp] theorem State.topOfForm_stepRecord (s : State) : (s.topOfForm).stepRecord = s.stepRecord := rfl
@[simp] theorem State.topOfForm_stepDrive (s : State) : (s.topOfForm).stepDrive = s.stepDrive := rfl
@[simp] theorem State.topOfForm_frameDelay (s : State) : (s.topOfForm).frameDelay = s.frameDelay := rfl
@[simp] theorem State.topOfForm_headLatch (s : State) : (s.topOfForm).headLatch = s.headLatch := rfl
@[simp] theorem State.topOfForm_pending (s : State) : (s.topOfForm).pending = s.pending := rfl

/-! ### clearParser -/

@[simp] theorem State.clearParser_clock (s : State) : (s.clearParser).clock = s.clock := rfl
@[simp] theorem State.clearParser_frameMoment (s : State) : (s.clearParser).frameMoment = s.frameMoment := rfl
@[simp] theorem State.clearParser_rstLow (s : State) : (s.clearParser).rstLow = s.rstLow := rfl
@[simp] theorem State.clearParser_straps (s : State) : (s.clearParser).straps = s.straps := rfl
@[simp] theorem State.clearParser_mode (s : State) : (s.clearParser).mode = s.mode := rfl
@[simp] theorem State.clearParser_faults (s : State) : (s.clearParser).faults = s.faults := rfl
@[simp] theorem State.clearParser_faultLow (s : State) : (s.clearParser).faultLow = s.faultLow := rfl
@[simp] theorem State.clearParser_stops (s : State) : (s.clearParser).stops = s.stops := rfl
@[simp] theorem State.clearParser_startInterval (s : State) : (s.clearParser).startInterval = s.startInterval := rfl
@[simp] theorem State.clearParser_formingInterval (s : State) : (s.clearParser).formingInterval =
    s.formingInterval := rfl
@[simp] theorem State.clearParser_inputs (s : State) : (s.clearParser).inputs = s.inputs := rfl
@[simp] theorem State.clearParser_inputBuffer (s : State) : (s.clearParser).inputBuffer = s.inputBuffer := rfl
@[simp] theorem State.clearParser_strobe (s : State) : (s.clearParser).strobe = s.strobe := rfl
@[simp] theorem State.clearParser_pd (s : State) : (s.clearParser).pd = s.pd := rfl
@[simp] theorem State.clearParser_pinitLowSince (s : State) : (s.clearParser).pinitLowSince = s.pinitLowSince := rfl
@[simp] theorem State.clearParser_warnings (s : State) : (s.clearParser).warnings = s.warnings := rfl
@[simp] theorem State.clearParser_senseRead (s : State) : (s.clearParser).senseRead = s.senseRead := rfl
@[simp] theorem State.clearParser_parser (s : State) : (s.clearParser).parser =
    { checkMode := s.parser.checkMode } := rfl
@[simp] theorem State.clearParser_codeTable (s : State) : (s.clearParser).codeTable = s.codeTable := rfl
@[simp] theorem State.clearParser_loadable (s : State) : (s.clearParser).loadable = s.loadable := rfl
@[simp] theorem State.clearParser_queue (s : State) : (s.clearParser).queue = s.queue := rfl
@[simp] theorem State.clearParser_counter (s : State) : (s.clearParser).counter = s.counter := rfl
@[simp] theorem State.clearParser_bufA (s : State) : (s.clearParser).bufA = s.bufA := rfl
@[simp] theorem State.clearParser_bufB (s : State) : (s.clearParser).bufB = s.bufB := rfl
@[simp] theorem State.clearParser_render (s : State) : (s.clearParser).render = s.render := rfl
@[simp] theorem State.clearParser_form (s : State) : (s.clearParser).form = s.form := rfl
@[simp] theorem State.clearParser_line (s : State) : (s.clearParser).line = s.line := rfl
@[simp] theorem State.clearParser_formCount (s : State) : (s.clearParser).formCount = s.formCount := rfl
@[simp] theorem State.clearParser_overflow (s : State) : (s.clearParser).overflow = s.overflow := rfl
@[simp] theorem State.clearParser_plan (s : State) : (s.clearParser).plan = s.plan := rfl
@[simp] theorem State.clearParser_motion (s : State) : (s.clearParser).motion = s.motion := rfl
@[simp] theorem State.clearParser_stepRecord (s : State) : (s.clearParser).stepRecord = s.stepRecord := rfl
@[simp] theorem State.clearParser_stepDrive (s : State) : (s.clearParser).stepDrive = s.stepDrive := rfl
@[simp] theorem State.clearParser_frameDelay (s : State) : (s.clearParser).frameDelay = s.frameDelay := rfl
@[simp] theorem State.clearParser_headLatch (s : State) : (s.clearParser).headLatch = s.headLatch := rfl
@[simp] theorem State.clearParser_pending (s : State) : (s.clearParser).pending = s.pending := rfl

/-! ### abandonInput -/

@[simp] theorem State.abandonInput_clock (s : State) : (s.abandonInput).clock = s.clock := rfl
@[simp] theorem State.abandonInput_frameMoment (s : State) : (s.abandonInput).frameMoment = s.frameMoment := rfl
@[simp] theorem State.abandonInput_rstLow (s : State) : (s.abandonInput).rstLow = s.rstLow := rfl
@[simp] theorem State.abandonInput_straps (s : State) : (s.abandonInput).straps = s.straps := rfl
@[simp] theorem State.abandonInput_mode (s : State) : (s.abandonInput).mode = s.mode := rfl
@[simp] theorem State.abandonInput_faults (s : State) : (s.abandonInput).faults = s.faults := rfl
@[simp] theorem State.abandonInput_faultLow (s : State) : (s.abandonInput).faultLow = s.faultLow := rfl
@[simp] theorem State.abandonInput_stops (s : State) : (s.abandonInput).stops = s.stops := rfl
@[simp] theorem State.abandonInput_startInterval (s : State) : (s.abandonInput).startInterval = s.startInterval := rfl
@[simp] theorem State.abandonInput_formingInterval (s : State) : (s.abandonInput).formingInterval =
    s.formingInterval := rfl
@[simp] theorem State.abandonInput_inputs (s : State) : (s.abandonInput).inputs = s.inputs := rfl
@[simp] theorem State.abandonInput_inputBuffer (s : State) : (s.abandonInput).inputBuffer = [] := rfl
@[simp] theorem State.abandonInput_strobe (s : State) : (s.abandonInput).strobe = s.strobe := rfl
@[simp] theorem State.abandonInput_pd (s : State) : (s.abandonInput).pd = s.pd := rfl
@[simp] theorem State.abandonInput_pinitLowSince (s : State) : (s.abandonInput).pinitLowSince = s.pinitLowSince := rfl
@[simp] theorem State.abandonInput_warnings (s : State) : (s.abandonInput).warnings = s.warnings := rfl
@[simp] theorem State.abandonInput_senseRead (s : State) : (s.abandonInput).senseRead = s.senseRead := rfl
@[simp] theorem State.abandonInput_parser (s : State) : (s.abandonInput).parser =
    { checkMode := s.parser.checkMode } := rfl
@[simp] theorem State.abandonInput_codeTable (s : State) : (s.abandonInput).codeTable = s.codeTable := rfl
@[simp] theorem State.abandonInput_loadable (s : State) : (s.abandonInput).loadable = s.loadable := rfl
@[simp] theorem State.abandonInput_queue (s : State) : (s.abandonInput).queue = s.queue := rfl
@[simp] theorem State.abandonInput_counter (s : State) : (s.abandonInput).counter = s.counter := rfl
@[simp] theorem State.abandonInput_bufA (s : State) : (s.abandonInput).bufA = s.bufA := rfl
@[simp] theorem State.abandonInput_bufB (s : State) : (s.abandonInput).bufB = s.bufB := rfl
@[simp] theorem State.abandonInput_render (s : State) : (s.abandonInput).render = s.render := rfl
@[simp] theorem State.abandonInput_form (s : State) : (s.abandonInput).form = s.form := rfl
@[simp] theorem State.abandonInput_line (s : State) : (s.abandonInput).line = s.line := rfl
@[simp] theorem State.abandonInput_formCount (s : State) : (s.abandonInput).formCount = s.formCount := rfl
@[simp] theorem State.abandonInput_overflow (s : State) : (s.abandonInput).overflow = s.overflow := rfl
@[simp] theorem State.abandonInput_plan (s : State) : (s.abandonInput).plan = s.plan := rfl
@[simp] theorem State.abandonInput_motion (s : State) : (s.abandonInput).motion = s.motion := rfl
@[simp] theorem State.abandonInput_stepRecord (s : State) : (s.abandonInput).stepRecord = s.stepRecord := rfl
@[simp] theorem State.abandonInput_stepDrive (s : State) : (s.abandonInput).stepDrive = s.stepDrive := rfl
@[simp] theorem State.abandonInput_frameDelay (s : State) : (s.abandonInput).frameDelay = s.frameDelay := rfl
@[simp] theorem State.abandonInput_headLatch (s : State) : (s.abandonInput).headLatch = s.headLatch := rfl
@[simp] theorem State.abandonInput_pending (s : State) : (s.abandonInput).pending = s.pending := rfl

/-! ### await -/

@[simp] theorem State.await_clock (s : State) (w : ParserState) (o : RecordOrder) : (s.await w o).clock = s.clock := rfl
@[simp] theorem State.await_frameMoment (s : State) (w : ParserState) (o : RecordOrder) : (s.await w o).frameMoment =
    s.frameMoment := rfl
@[simp] theorem State.await_rstLow (s : State) (w : ParserState) (o : RecordOrder) : (s.await w o).rstLow =
    s.rstLow := rfl
@[simp] theorem State.await_straps (s : State) (w : ParserState) (o : RecordOrder) : (s.await w o).straps =
    s.straps := rfl
@[simp] theorem State.await_mode (s : State) (w : ParserState) (o : RecordOrder) : (s.await w o).mode = s.mode := rfl
@[simp] theorem State.await_faults (s : State) (w : ParserState) (o : RecordOrder) : (s.await w o).faults =
    s.faults := rfl
@[simp] theorem State.await_faultLow (s : State) (w : ParserState) (o : RecordOrder) : (s.await w o).faultLow =
    s.faultLow := rfl
@[simp] theorem State.await_stops (s : State) (w : ParserState) (o : RecordOrder) : (s.await w o).stops = s.stops := rfl
@[simp] theorem State.await_startInterval (s : State) (w : ParserState) (o : RecordOrder) : (s.await w o).startInterval =
    s.startInterval := rfl
@[simp] theorem State.await_formingInterval (s : State) (w : ParserState) (o : RecordOrder) : (s.await w o).formingInterval =
    s.formingInterval := rfl
@[simp] theorem State.await_inputs (s : State) (w : ParserState) (o : RecordOrder) : (s.await w o).inputs =
    s.inputs := rfl
@[simp] theorem State.await_inputBuffer (s : State) (w : ParserState) (o : RecordOrder) : (s.await w o).inputBuffer =
    s.inputBuffer := rfl
@[simp] theorem State.await_strobe (s : State) (w : ParserState) (o : RecordOrder) : (s.await w o).strobe =
    s.strobe := rfl
@[simp] theorem State.await_pd (s : State) (w : ParserState) (o : RecordOrder) : (s.await w o).pd = s.pd := rfl
@[simp] theorem State.await_pinitLowSince (s : State) (w : ParserState) (o : RecordOrder) : (s.await w o).pinitLowSince =
    s.pinitLowSince := rfl
@[simp] theorem State.await_warnings (s : State) (w : ParserState) (o : RecordOrder) : (s.await w o).warnings =
    s.warnings := rfl
@[simp] theorem State.await_senseRead (s : State) (w : ParserState) (o : RecordOrder) : (s.await w o).senseRead =
    s.senseRead := rfl
@[simp] theorem State.await_parser (s : State) (w : ParserState) (o : RecordOrder) : (s.await w o).parser =
    { state := w, order := some o, checkMode := s.parser.checkMode } := rfl
@[simp] theorem State.await_codeTable (s : State) (w : ParserState) (o : RecordOrder) : (s.await w o).codeTable =
    s.codeTable := rfl
@[simp] theorem State.await_loadable (s : State) (w : ParserState) (o : RecordOrder) : (s.await w o).loadable =
    s.loadable := rfl
@[simp] theorem State.await_queue (s : State) (w : ParserState) (o : RecordOrder) : (s.await w o).queue = s.queue := rfl
@[simp] theorem State.await_counter (s : State) (w : ParserState) (o : RecordOrder) : (s.await w o).counter =
    s.counter := rfl
@[simp] theorem State.await_bufA (s : State) (w : ParserState) (o : RecordOrder) : (s.await w o).bufA = s.bufA := rfl
@[simp] theorem State.await_bufB (s : State) (w : ParserState) (o : RecordOrder) : (s.await w o).bufB = s.bufB := rfl
@[simp] theorem State.await_render (s : State) (w : ParserState) (o : RecordOrder) : (s.await w o).render =
    s.render := rfl
@[simp] theorem State.await_form (s : State) (w : ParserState) (o : RecordOrder) : (s.await w o).form = s.form := rfl
@[simp] theorem State.await_line (s : State) (w : ParserState) (o : RecordOrder) : (s.await w o).line = s.line := rfl
@[simp] theorem State.await_formCount (s : State) (w : ParserState) (o : RecordOrder) : (s.await w o).formCount =
    s.formCount := rfl
@[simp] theorem State.await_overflow (s : State) (w : ParserState) (o : RecordOrder) : (s.await w o).overflow =
    s.overflow := rfl
@[simp] theorem State.await_plan (s : State) (w : ParserState) (o : RecordOrder) : (s.await w o).plan = s.plan := rfl
@[simp] theorem State.await_motion (s : State) (w : ParserState) (o : RecordOrder) : (s.await w o).motion =
    s.motion := rfl
@[simp] theorem State.await_stepRecord (s : State) (w : ParserState) (o : RecordOrder) : (s.await w o).stepRecord =
    s.stepRecord := rfl
@[simp] theorem State.await_stepDrive (s : State) (w : ParserState) (o : RecordOrder) : (s.await w o).stepDrive =
    s.stepDrive := rfl
@[simp] theorem State.await_frameDelay (s : State) (w : ParserState) (o : RecordOrder) : (s.await w o).frameDelay =
    s.frameDelay := rfl
@[simp] theorem State.await_headLatch (s : State) (w : ParserState) (o : RecordOrder) : (s.await w o).headLatch =
    s.headLatch := rfl
@[simp] theorem State.await_pending (s : State) (w : ParserState) (o : RecordOrder) : (s.await w o).pending =
    s.pending := rfl

/-! ### enterBody -/

@[simp] theorem State.enterBody_clock (s : State) (o : RecordOrder) : (s.enterBody o).clock = s.clock := rfl
@[simp] theorem State.enterBody_frameMoment (s : State) (o : RecordOrder) : (s.enterBody o).frameMoment =
    s.frameMoment := rfl
@[simp] theorem State.enterBody_rstLow (s : State) (o : RecordOrder) : (s.enterBody o).rstLow = s.rstLow := rfl
@[simp] theorem State.enterBody_straps (s : State) (o : RecordOrder) : (s.enterBody o).straps = s.straps := rfl
@[simp] theorem State.enterBody_mode (s : State) (o : RecordOrder) : (s.enterBody o).mode = s.mode := rfl
@[simp] theorem State.enterBody_faults (s : State) (o : RecordOrder) : (s.enterBody o).faults = s.faults := rfl
@[simp] theorem State.enterBody_faultLow (s : State) (o : RecordOrder) : (s.enterBody o).faultLow = s.faultLow := rfl
@[simp] theorem State.enterBody_stops (s : State) (o : RecordOrder) : (s.enterBody o).stops = s.stops := rfl
@[simp] theorem State.enterBody_startInterval (s : State) (o : RecordOrder) : (s.enterBody o).startInterval =
    s.startInterval := rfl
@[simp] theorem State.enterBody_formingInterval (s : State) (o : RecordOrder) : (s.enterBody o).formingInterval =
    s.formingInterval := rfl
@[simp] theorem State.enterBody_inputs (s : State) (o : RecordOrder) : (s.enterBody o).inputs = s.inputs := rfl
@[simp] theorem State.enterBody_inputBuffer (s : State) (o : RecordOrder) : (s.enterBody o).inputBuffer =
    s.inputBuffer := rfl
@[simp] theorem State.enterBody_strobe (s : State) (o : RecordOrder) : (s.enterBody o).strobe = s.strobe := rfl
@[simp] theorem State.enterBody_pd (s : State) (o : RecordOrder) : (s.enterBody o).pd = s.pd := rfl
@[simp] theorem State.enterBody_pinitLowSince (s : State) (o : RecordOrder) : (s.enterBody o).pinitLowSince =
    s.pinitLowSince := rfl
@[simp] theorem State.enterBody_warnings (s : State) (o : RecordOrder) : (s.enterBody o).warnings = s.warnings := rfl
@[simp] theorem State.enterBody_senseRead (s : State) (o : RecordOrder) : (s.enterBody o).senseRead = s.senseRead := rfl
@[simp] theorem State.enterBody_parser (s : State) (o : RecordOrder) : (s.enterBody o).parser =
    { state := .body, order := some o, remaining := if o = .loadGlyph then some 10 else none, layer := if isPrint o then some (.fresh s.straps.effective) else none, checkMode := s.parser.checkMode } := rfl
@[simp] theorem State.enterBody_codeTable (s : State) (o : RecordOrder) : (s.enterBody o).codeTable = s.codeTable := rfl
@[simp] theorem State.enterBody_loadable (s : State) (o : RecordOrder) : (s.enterBody o).loadable = s.loadable := rfl
@[simp] theorem State.enterBody_queue (s : State) (o : RecordOrder) : (s.enterBody o).queue = s.queue := rfl
@[simp] theorem State.enterBody_counter (s : State) (o : RecordOrder) : (s.enterBody o).counter = s.counter := rfl
@[simp] theorem State.enterBody_bufA (s : State) (o : RecordOrder) : (s.enterBody o).bufA = s.bufA := rfl
@[simp] theorem State.enterBody_bufB (s : State) (o : RecordOrder) : (s.enterBody o).bufB = s.bufB := rfl
@[simp] theorem State.enterBody_render (s : State) (o : RecordOrder) : (s.enterBody o).render = s.render := rfl
@[simp] theorem State.enterBody_form (s : State) (o : RecordOrder) : (s.enterBody o).form = s.form := rfl
@[simp] theorem State.enterBody_line (s : State) (o : RecordOrder) : (s.enterBody o).line = s.line := rfl
@[simp] theorem State.enterBody_formCount (s : State) (o : RecordOrder) : (s.enterBody o).formCount = s.formCount := rfl
@[simp] theorem State.enterBody_overflow (s : State) (o : RecordOrder) : (s.enterBody o).overflow = s.overflow := rfl
@[simp] theorem State.enterBody_plan (s : State) (o : RecordOrder) : (s.enterBody o).plan = s.plan := rfl
@[simp] theorem State.enterBody_motion (s : State) (o : RecordOrder) : (s.enterBody o).motion = s.motion := rfl
@[simp] theorem State.enterBody_stepRecord (s : State) (o : RecordOrder) : (s.enterBody o).stepRecord =
    s.stepRecord := rfl
@[simp] theorem State.enterBody_stepDrive (s : State) (o : RecordOrder) : (s.enterBody o).stepDrive = s.stepDrive := rfl
@[simp] theorem State.enterBody_frameDelay (s : State) (o : RecordOrder) : (s.enterBody o).frameDelay =
    s.frameDelay := rfl
@[simp] theorem State.enterBody_headLatch (s : State) (o : RecordOrder) : (s.enterBody o).headLatch = s.headLatch := rfl
@[simp] theorem State.enterBody_pending (s : State) (o : RecordOrder) : (s.enterBody o).pending = s.pending := rfl

/-! ### writeRise -/

@[simp] theorem State.writeRise_clock (s : State) : (s.writeRise).clock = s.clock := rfl
@[simp] theorem State.writeRise_frameMoment (s : State) : (s.writeRise).frameMoment = s.frameMoment := rfl
@[simp] theorem State.writeRise_rstLow (s : State) : (s.writeRise).rstLow = s.rstLow := rfl
@[simp] theorem State.writeRise_straps (s : State) : (s.writeRise).straps = s.straps := rfl
@[simp] theorem State.writeRise_mode (s : State) : (s.writeRise).mode = s.mode := rfl
@[simp] theorem State.writeRise_faults (s : State) : (s.writeRise).faults = s.faults := rfl
@[simp] theorem State.writeRise_faultLow (s : State) : (s.writeRise).faultLow = s.faultLow := rfl
@[simp] theorem State.writeRise_stops (s : State) : (s.writeRise).stops = s.stops := rfl
@[simp] theorem State.writeRise_startInterval (s : State) : (s.writeRise).startInterval = s.startInterval := rfl
@[simp] theorem State.writeRise_formingInterval (s : State) : (s.writeRise).formingInterval = s.formingInterval := rfl
@[simp] theorem State.writeRise_inputs (s : State) : (s.writeRise).inputs = s.inputs := rfl
@[simp] theorem State.writeRise_inputBuffer (s : State) : (s.writeRise).inputBuffer = s.inputBuffer := rfl
@[simp] theorem State.writeRise_strobe (s : State) : (s.writeRise).strobe = .none := rfl
@[simp] theorem State.writeRise_pd (s : State) : (s.writeRise).pd = 0xFF := rfl
@[simp] theorem State.writeRise_pinitLowSince (s : State) : (s.writeRise).pinitLowSince = s.pinitLowSince := rfl
@[simp] theorem State.writeRise_warnings (s : State) : (s.writeRise).warnings = s.warnings := rfl
@[simp] theorem State.writeRise_senseRead (s : State) : (s.writeRise).senseRead =
    if s.answers then none else s.senseRead := rfl
@[simp] theorem State.writeRise_parser (s : State) : (s.writeRise).parser = s.parser := rfl
@[simp] theorem State.writeRise_codeTable (s : State) : (s.writeRise).codeTable = s.codeTable := rfl
@[simp] theorem State.writeRise_loadable (s : State) : (s.writeRise).loadable = s.loadable := rfl
@[simp] theorem State.writeRise_queue (s : State) : (s.writeRise).queue = s.queue := rfl
@[simp] theorem State.writeRise_counter (s : State) : (s.writeRise).counter = s.counter := rfl
@[simp] theorem State.writeRise_bufA (s : State) : (s.writeRise).bufA = s.bufA := rfl
@[simp] theorem State.writeRise_bufB (s : State) : (s.writeRise).bufB = s.bufB := rfl
@[simp] theorem State.writeRise_render (s : State) : (s.writeRise).render = s.render := rfl
@[simp] theorem State.writeRise_form (s : State) : (s.writeRise).form = s.form := rfl
@[simp] theorem State.writeRise_line (s : State) : (s.writeRise).line = s.line := rfl
@[simp] theorem State.writeRise_formCount (s : State) : (s.writeRise).formCount = s.formCount := rfl
@[simp] theorem State.writeRise_overflow (s : State) : (s.writeRise).overflow = s.overflow := rfl
@[simp] theorem State.writeRise_plan (s : State) : (s.writeRise).plan = s.plan := rfl
@[simp] theorem State.writeRise_motion (s : State) : (s.writeRise).motion = s.motion := rfl
@[simp] theorem State.writeRise_stepRecord (s : State) : (s.writeRise).stepRecord = s.stepRecord := rfl
@[simp] theorem State.writeRise_stepDrive (s : State) : (s.writeRise).stepDrive = s.stepDrive := rfl
@[simp] theorem State.writeRise_frameDelay (s : State) : (s.writeRise).frameDelay = s.frameDelay := rfl
@[simp] theorem State.writeRise_headLatch (s : State) : (s.writeRise).headLatch = s.headLatch := rfl
@[simp] theorem State.writeRise_pending (s : State) : (s.writeRise).pending = s.pending := rfl

/-! ### readOver -/

@[simp] theorem State.readOver_clock (s : State) : (s.readOver).clock = s.clock := rfl
@[simp] theorem State.readOver_frameMoment (s : State) : (s.readOver).frameMoment = s.frameMoment := rfl
@[simp] theorem State.readOver_rstLow (s : State) : (s.readOver).rstLow = s.rstLow := rfl
@[simp] theorem State.readOver_straps (s : State) : (s.readOver).straps = s.straps := rfl
@[simp] theorem State.readOver_mode (s : State) : (s.readOver).mode = s.mode := rfl
@[simp] theorem State.readOver_faults (s : State) : (s.readOver).faults = s.faults := rfl
@[simp] theorem State.readOver_faultLow (s : State) : (s.readOver).faultLow = s.faultLow := rfl
@[simp] theorem State.readOver_stops (s : State) : (s.readOver).stops = s.stops := rfl
@[simp] theorem State.readOver_startInterval (s : State) : (s.readOver).startInterval = s.startInterval := rfl
@[simp] theorem State.readOver_formingInterval (s : State) : (s.readOver).formingInterval = s.formingInterval := rfl
@[simp] theorem State.readOver_inputs (s : State) : (s.readOver).inputs = s.inputs := rfl
@[simp] theorem State.readOver_inputBuffer (s : State) : (s.readOver).inputBuffer = s.inputBuffer := rfl
@[simp] theorem State.readOver_strobe (s : State) : (s.readOver).strobe = .none := rfl
@[simp] theorem State.readOver_pd (s : State) : (s.readOver).pd = 0xFF := rfl
@[simp] theorem State.readOver_pinitLowSince (s : State) : (s.readOver).pinitLowSince = s.pinitLowSince := rfl
@[simp] theorem State.readOver_warnings (s : State) : (s.readOver).warnings = s.warnings := rfl
@[simp] theorem State.readOver_senseRead (s : State) : (s.readOver).senseRead = s.senseRead := rfl
@[simp] theorem State.readOver_parser (s : State) : (s.readOver).parser = s.parser := rfl
@[simp] theorem State.readOver_codeTable (s : State) : (s.readOver).codeTable = s.codeTable := rfl
@[simp] theorem State.readOver_loadable (s : State) : (s.readOver).loadable = s.loadable := rfl
@[simp] theorem State.readOver_queue (s : State) : (s.readOver).queue = s.queue := rfl
@[simp] theorem State.readOver_counter (s : State) : (s.readOver).counter = s.counter := rfl
@[simp] theorem State.readOver_bufA (s : State) : (s.readOver).bufA = s.bufA := rfl
@[simp] theorem State.readOver_bufB (s : State) : (s.readOver).bufB = s.bufB := rfl
@[simp] theorem State.readOver_render (s : State) : (s.readOver).render = s.render := rfl
@[simp] theorem State.readOver_form (s : State) : (s.readOver).form = s.form := rfl
@[simp] theorem State.readOver_line (s : State) : (s.readOver).line = s.line := rfl
@[simp] theorem State.readOver_formCount (s : State) : (s.readOver).formCount = s.formCount := rfl
@[simp] theorem State.readOver_overflow (s : State) : (s.readOver).overflow = s.overflow := rfl
@[simp] theorem State.readOver_plan (s : State) : (s.readOver).plan = s.plan := rfl
@[simp] theorem State.readOver_motion (s : State) : (s.readOver).motion = s.motion := rfl
@[simp] theorem State.readOver_stepRecord (s : State) : (s.readOver).stepRecord = s.stepRecord := rfl
@[simp] theorem State.readOver_stepDrive (s : State) : (s.readOver).stepDrive = s.stepDrive := rfl
@[simp] theorem State.readOver_frameDelay (s : State) : (s.readOver).frameDelay = s.frameDelay := rfl
@[simp] theorem State.readOver_headLatch (s : State) : (s.readOver).headLatch = s.headLatch := rfl
@[simp] theorem State.readOver_pending (s : State) : (s.readOver).pending = s.pending := rfl

/-! ### consume -/

@[simp] theorem State.consume_clock (s : State) (kinds : List Warning) : (s.consume kinds).clock = s.clock := rfl
@[simp] theorem State.consume_frameMoment (s : State) (kinds : List Warning) : (s.consume kinds).frameMoment =
    s.frameMoment := rfl
@[simp] theorem State.consume_rstLow (s : State) (kinds : List Warning) : (s.consume kinds).rstLow = s.rstLow := rfl
@[simp] theorem State.consume_straps (s : State) (kinds : List Warning) : (s.consume kinds).straps = s.straps := rfl
@[simp] theorem State.consume_mode (s : State) (kinds : List Warning) : (s.consume kinds).mode = s.mode := rfl
@[simp] theorem State.consume_faults (s : State) (kinds : List Warning) : (s.consume kinds).faults = s.faults := rfl
@[simp] theorem State.consume_faultLow (s : State) (kinds : List Warning) : (s.consume kinds).faultLow =
    s.faultLow := rfl
@[simp] theorem State.consume_stops (s : State) (kinds : List Warning) : (s.consume kinds).stops = s.stops := rfl
@[simp] theorem State.consume_startInterval (s : State) (kinds : List Warning) : (s.consume kinds).startInterval =
    s.startInterval := rfl
@[simp] theorem State.consume_formingInterval (s : State) (kinds : List Warning) : (s.consume kinds).formingInterval =
    s.formingInterval := rfl
@[simp] theorem State.consume_inputs (s : State) (kinds : List Warning) : (s.consume kinds).inputs = s.inputs := rfl
@[simp] theorem State.consume_inputBuffer (s : State) (kinds : List Warning) : (s.consume kinds).inputBuffer =
    s.inputBuffer := rfl
@[simp] theorem State.consume_strobe (s : State) (kinds : List Warning) : (s.consume kinds).strobe = s.strobe := rfl
@[simp] theorem State.consume_pd (s : State) (kinds : List Warning) : (s.consume kinds).pd = s.pd := rfl
@[simp] theorem State.consume_pinitLowSince (s : State) (kinds : List Warning) : (s.consume kinds).pinitLowSince =
    s.pinitLowSince := rfl
@[simp] theorem State.consume_warnings (s : State) (kinds : List Warning) : (s.consume kinds).warnings =
    s.warnings.filter fun w => !kinds.contains w := rfl
@[simp] theorem State.consume_senseRead (s : State) (kinds : List Warning) : (s.consume kinds).senseRead =
    s.senseRead := rfl
@[simp] theorem State.consume_parser (s : State) (kinds : List Warning) : (s.consume kinds).parser = s.parser := rfl
@[simp] theorem State.consume_codeTable (s : State) (kinds : List Warning) : (s.consume kinds).codeTable =
    s.codeTable := rfl
@[simp] theorem State.consume_loadable (s : State) (kinds : List Warning) : (s.consume kinds).loadable =
    s.loadable := rfl
@[simp] theorem State.consume_queue (s : State) (kinds : List Warning) : (s.consume kinds).queue = s.queue := rfl
@[simp] theorem State.consume_counter (s : State) (kinds : List Warning) : (s.consume kinds).counter = s.counter := rfl
@[simp] theorem State.consume_bufA (s : State) (kinds : List Warning) : (s.consume kinds).bufA = s.bufA := rfl
@[simp] theorem State.consume_bufB (s : State) (kinds : List Warning) : (s.consume kinds).bufB = s.bufB := rfl
@[simp] theorem State.consume_render (s : State) (kinds : List Warning) : (s.consume kinds).render = s.render := rfl
@[simp] theorem State.consume_form (s : State) (kinds : List Warning) : (s.consume kinds).form = s.form := rfl
@[simp] theorem State.consume_line (s : State) (kinds : List Warning) : (s.consume kinds).line = s.line := rfl
@[simp] theorem State.consume_formCount (s : State) (kinds : List Warning) : (s.consume kinds).formCount =
    s.formCount := rfl
@[simp] theorem State.consume_overflow (s : State) (kinds : List Warning) : (s.consume kinds).overflow =
    s.overflow := rfl
@[simp] theorem State.consume_plan (s : State) (kinds : List Warning) : (s.consume kinds).plan = s.plan := rfl
@[simp] theorem State.consume_motion (s : State) (kinds : List Warning) : (s.consume kinds).motion = s.motion := rfl
@[simp] theorem State.consume_stepRecord (s : State) (kinds : List Warning) : (s.consume kinds).stepRecord =
    s.stepRecord := rfl
@[simp] theorem State.consume_stepDrive (s : State) (kinds : List Warning) : (s.consume kinds).stepDrive =
    s.stepDrive := rfl
@[simp] theorem State.consume_frameDelay (s : State) (kinds : List Warning) : (s.consume kinds).frameDelay =
    s.frameDelay := rfl
@[simp] theorem State.consume_headLatch (s : State) (kinds : List Warning) : (s.consume kinds).headLatch =
    s.headLatch := rfl
@[simp] theorem State.consume_pending (s : State) (kinds : List Warning) : (s.consume kinds).pending = s.pending := rfl

/-! ### senseOrder -/

@[simp] theorem State.senseOrder_clock (s : State) : (s.senseOrder).clock = s.clock := rfl
@[simp] theorem State.senseOrder_frameMoment (s : State) : (s.senseOrder).frameMoment = s.frameMoment := rfl
@[simp] theorem State.senseOrder_rstLow (s : State) : (s.senseOrder).rstLow = s.rstLow := rfl
@[simp] theorem State.senseOrder_straps (s : State) : (s.senseOrder).straps = s.straps := rfl
@[simp] theorem State.senseOrder_mode (s : State) : (s.senseOrder).mode = s.mode := rfl
@[simp] theorem State.senseOrder_faults (s : State) : (s.senseOrder).faults = s.faults := rfl
@[simp] theorem State.senseOrder_faultLow (s : State) : (s.senseOrder).faultLow = s.faultLow := rfl
@[simp] theorem State.senseOrder_stops (s : State) : (s.senseOrder).stops = s.stops := rfl
@[simp] theorem State.senseOrder_startInterval (s : State) : (s.senseOrder).startInterval = s.startInterval := rfl
@[simp] theorem State.senseOrder_formingInterval (s : State) : (s.senseOrder).formingInterval = s.formingInterval := rfl
@[simp] theorem State.senseOrder_inputs (s : State) : (s.senseOrder).inputs = s.inputs := rfl
@[simp] theorem State.senseOrder_inputBuffer (s : State) : (s.senseOrder).inputBuffer = s.inputBuffer := rfl
@[simp] theorem State.senseOrder_strobe (s : State) : (s.senseOrder).strobe = s.strobe := rfl
@[simp] theorem State.senseOrder_pd (s : State) : (s.senseOrder).pd = s.pd := rfl
@[simp] theorem State.senseOrder_pinitLowSince (s : State) : (s.senseOrder).pinitLowSince = s.pinitLowSince := rfl
@[simp] theorem State.senseOrder_warnings (s : State) : (s.senseOrder).warnings = s.warnings := rfl
@[simp] theorem State.senseOrder_senseRead (s : State) : (s.senseOrder).senseRead =
    some { snapshot := s.snapshot, kinds := s.warnings } := rfl
@[simp] theorem State.senseOrder_parser (s : State) : (s.senseOrder).parser = s.parser := rfl
@[simp] theorem State.senseOrder_codeTable (s : State) : (s.senseOrder).codeTable = s.codeTable := rfl
@[simp] theorem State.senseOrder_loadable (s : State) : (s.senseOrder).loadable = s.loadable := rfl
@[simp] theorem State.senseOrder_queue (s : State) : (s.senseOrder).queue = s.queue := rfl
@[simp] theorem State.senseOrder_counter (s : State) : (s.senseOrder).counter = s.counter := rfl
@[simp] theorem State.senseOrder_bufA (s : State) : (s.senseOrder).bufA = s.bufA := rfl
@[simp] theorem State.senseOrder_bufB (s : State) : (s.senseOrder).bufB = s.bufB := rfl
@[simp] theorem State.senseOrder_render (s : State) : (s.senseOrder).render = s.render := rfl
@[simp] theorem State.senseOrder_form (s : State) : (s.senseOrder).form = s.form := rfl
@[simp] theorem State.senseOrder_line (s : State) : (s.senseOrder).line = s.line := rfl
@[simp] theorem State.senseOrder_formCount (s : State) : (s.senseOrder).formCount = s.formCount := rfl
@[simp] theorem State.senseOrder_overflow (s : State) : (s.senseOrder).overflow = s.overflow := rfl
@[simp] theorem State.senseOrder_plan (s : State) : (s.senseOrder).plan = s.plan := rfl
@[simp] theorem State.senseOrder_motion (s : State) : (s.senseOrder).motion = s.motion := rfl
@[simp] theorem State.senseOrder_stepRecord (s : State) : (s.senseOrder).stepRecord = s.stepRecord := rfl
@[simp] theorem State.senseOrder_stepDrive (s : State) : (s.senseOrder).stepDrive = s.stepDrive := rfl
@[simp] theorem State.senseOrder_frameDelay (s : State) : (s.senseOrder).frameDelay = s.frameDelay := rfl
@[simp] theorem State.senseOrder_headLatch (s : State) : (s.senseOrder).headLatch = s.headLatch := rfl
@[simp] theorem State.senseOrder_pending (s : State) : (s.senseOrder).pending = s.pending := rfl

/-! ### strobed -/

@[simp] theorem State.strobed_clock (s : State) : (s.strobed).clock = s.clock := rfl
@[simp] theorem State.strobed_frameMoment (s : State) : (s.strobed).frameMoment = s.frameMoment := rfl
@[simp] theorem State.strobed_rstLow (s : State) : (s.strobed).rstLow = s.rstLow := rfl
@[simp] theorem State.strobed_straps (s : State) : (s.strobed).straps = s.straps := rfl
@[simp] theorem State.strobed_mode (s : State) : (s.strobed).mode = s.mode := rfl
@[simp] theorem State.strobed_faults (s : State) : (s.strobed).faults = s.faults := rfl
@[simp] theorem State.strobed_faultLow (s : State) : (s.strobed).faultLow = s.faultLow := rfl
@[simp] theorem State.strobed_stops (s : State) : (s.strobed).stops = s.stops := rfl
@[simp] theorem State.strobed_startInterval (s : State) : (s.strobed).startInterval = s.startInterval := rfl
@[simp] theorem State.strobed_formingInterval (s : State) : (s.strobed).formingInterval = s.formingInterval := rfl
@[simp] theorem State.strobed_inputs (s : State) : (s.strobed).inputs = s.inputs := rfl
@[simp] theorem State.strobed_inputBuffer (s : State) : (s.strobed).inputBuffer = s.inputBuffer := rfl
@[simp] theorem State.strobed_strobe (s : State) : (s.strobed).strobe = .none := rfl
@[simp] theorem State.strobed_pd (s : State) : (s.strobed).pd = 0xFF := rfl
@[simp] theorem State.strobed_pinitLowSince (s : State) : (s.strobed).pinitLowSince = s.pinitLowSince := rfl
@[simp] theorem State.strobed_warnings (s : State) : (s.strobed).warnings = s.warnings := rfl
@[simp] theorem State.strobed_senseRead (s : State) : (s.strobed).senseRead = none := rfl
@[simp] theorem State.strobed_parser (s : State) : (s.strobed).parser = s.parser := rfl
@[simp] theorem State.strobed_codeTable (s : State) : (s.strobed).codeTable = s.codeTable := rfl
@[simp] theorem State.strobed_loadable (s : State) : (s.strobed).loadable = s.loadable := rfl
@[simp] theorem State.strobed_queue (s : State) : (s.strobed).queue = s.queue := rfl
@[simp] theorem State.strobed_counter (s : State) : (s.strobed).counter = s.counter := rfl
@[simp] theorem State.strobed_bufA (s : State) : (s.strobed).bufA = s.bufA := rfl
@[simp] theorem State.strobed_bufB (s : State) : (s.strobed).bufB = s.bufB := rfl
@[simp] theorem State.strobed_render (s : State) : (s.strobed).render = s.render := rfl
@[simp] theorem State.strobed_form (s : State) : (s.strobed).form = s.form := rfl
@[simp] theorem State.strobed_line (s : State) : (s.strobed).line = s.line := rfl
@[simp] theorem State.strobed_formCount (s : State) : (s.strobed).formCount = s.formCount := rfl
@[simp] theorem State.strobed_overflow (s : State) : (s.strobed).overflow = s.overflow := rfl
@[simp] theorem State.strobed_plan (s : State) : (s.strobed).plan = s.plan := rfl
@[simp] theorem State.strobed_motion (s : State) : (s.strobed).motion = s.motion := rfl
@[simp] theorem State.strobed_stepRecord (s : State) : (s.strobed).stepRecord = s.stepRecord := rfl
@[simp] theorem State.strobed_stepDrive (s : State) : (s.strobed).stepDrive = s.stepDrive := rfl
@[simp] theorem State.strobed_frameDelay (s : State) : (s.strobed).frameDelay = s.frameDelay := rfl
@[simp] theorem State.strobed_headLatch (s : State) : (s.strobed).headLatch = s.headLatch := rfl
@[simp] theorem State.strobed_pending (s : State) : (s.strobed).pending = s.pending := rfl

end Sys2Proof.Machine
end

