-- ==== Sys2Proof/Laws/Moment.lean ====
section
/-! SUPPORT. The steps a station takes by itself: each either is due or leaves the state alone, and with nothing due the
moment passes unchanged. -/

namespace Sys2Proof.Machine

theorem State.quiet_iff (s : State) :
    s.quiet = true ↔ s.placeDue = false ∧ s.drainDue = false ∧ s.renderDue = false ∧ s.motionDue = false ∧
      s.frameMoment = false ∧ s.inputs.keyDown = false := by
  simp [State.quiet, and_assoc]

theorem State.grantPlace_of_not_due {s : State} (h : s.placeDue = false) : s.grantPlace = s := by
  simp [State.grantPlace, h]

theorem State.endDrain_of_not_due {s : State} (h : s.drainDue = false) : s.endDrain = s := by
  simp [State.endDrain, h]

theorem State.startRender_of_not_due {s : State} (h : s.renderDue = false) : s.startRender = s := by
  simp [State.startRender, h]

theorem State.startMotion_of_not_due {s : State} (h : s.motionDue = false) : s.startMotion = s := by
  simp [State.startMotion, h]

theorem State.endStatusRead_of_not_open {s : State} (h : s.statusReadOpen = false) : s.endStatusRead = s := by
  simp [State.endStatusRead, h]

/-- Everything the rise of a status read can do (R160, R169). -/
theorem State.endStatusRead_cases (s : State) :
    s.endStatusRead = s ∨ (∃ b, s.strobe = .read b) ∧ s.senseRead = none ∧
      s.endStatusRead = { s with strobe := .none, pd := 0xFF } := by
  cases h : s.statusReadOpen with
  | false => exact .inl (s.endStatusRead_of_not_open h)
  | true =>
    refine .inr ?_
    cases hs : s.strobe <;> simp_all [State.statusReadOpen, State.endStatusRead, State.readOver]

/-- With no key pressed there is none to release (R140). -/
theorem State.releaseKeys_of_up {s : State} (h : s.inputs.keyDown = false) : s.releaseKeys = s := by
  simp only [Inputs.keyDown, Bool.or_eq_false_iff] at h
  obtain ⟨⟨⟨h1, h2⟩, h3⟩, h4⟩ := h
  have e : ({ s.inputs with kstart := false, kstop := false, kfeed := false, ktof := false } : Inputs) = s.inputs := by
    rcases hi : s.inputs with ⟨c, p, k1, k2, k3, k4, j⟩
    simp_all
  rw [State.releaseKeys, e]

/-- With nothing due, catching up changes nothing (log 5). -/
theorem State.catchUp_of_quiet {s : State} (h : s.quiet = true) : s.catchUp = s := by
  obtain ⟨hp, hd, hr, hm, hf, hk⟩ := s.quiet_iff.1 h
  rw [State.catchUp, s.releaseKeys_of_up hk, State.settle, s.grantPlace_of_not_due hp,
    s.endDrain_of_not_due hd, s.startRender_of_not_due hr, s.startMotion_of_not_due hm]
  cases s
  simp_all

/-- Everything the grant of a place can do (R8, R115). -/
theorem State.grantPlace_cases (s : State) :
    s.grantPlace = s ∨ ∃ o, s.parser.state = .awaitPlace ∧ s.parser.order = some o ∧ isLineOrder o = true ∧
      s.queue.length < 4 ∧ s.grantPlace = (s.lineOrder o).parse := by
  cases h : s.placeDue with
  | false => exact .inl (s.grantPlace_of_not_due h)
  | true =>
    have h' := h
    simp only [State.placeDue, Bool.and_eq_true, beq_iff_eq, decide_eq_true_eq] at h'
    obtain ⟨⟨hs, hq⟩, ho⟩ := h'
    cases hp : s.parser.order with
    | none => simp [hp] at ho
    | some o => exact .inr ⟨o, hs, rfl, by simpa [hp] using ho, hq, by simp [State.grantPlace, h, hp]⟩

/-- Everything the end of a drain wait can do (R112). -/
theorem State.endDrain_cases (s : State) :
    s.endDrain = s ∨ ∃ o, s.parser.state = .awaitDrain ∧ s.parser.order = some o ∧ s.drained = true ∧
      s.endDrain = (s.enterBody o).parse := by
  cases h : s.drainDue with
  | false => exact .inl (s.endDrain_of_not_due h)
  | true =>
    have h' := h
    simp only [State.drainDue, Bool.and_eq_true, beq_iff_eq] at h'
    obtain ⟨⟨hs, hd⟩, ho⟩ := h'
    obtain ⟨o, hp⟩ := Option.isSome_iff_exists.1 ho
    exact .inr ⟨o, hs, hp, hd, by simp [State.endDrain, h, hp]⟩

/-- Everything a render start can do (R69, R70). -/
theorem State.startRender_cases (s : State) :
    s.startRender = s ∨ ∃ buf c, s.render = none ∧ s.freeBuffer = some buf ∧
      s.queue.find? (fun x => x.state == .closed) = some c ∧
      s.startRender =
        { s with
          queue := updateFirst (fun x => x.state == .closed)
            (fun x => { x with state := .rendering, buffer := some buf }) s.queue
          bufA := if buf = .a then { holder := some c.seq, image := blankImage } else s.bufA
          bufB := if buf = .b then { holder := some c.seq, image := blankImage } else s.bufB
          render := some
            { seq := c.seq, buffer := buf, duration := Config.renderPerLayer * c.layers.length, start := s.clock } } := by
  cases h : s.renderDue with
  | false => exact .inl (s.startRender_of_not_due h)
  | true =>
    have h' := h
    simp only [State.renderDue, Bool.and_eq_true, Option.isNone_iff_eq_none] at h'
    obtain ⟨⟨hr, hb⟩, -⟩ := h'
    obtain ⟨buf, hb⟩ := Option.isSome_iff_exists.1 hb
    cases hc : s.queue.find? (fun x => x.state == .closed) with
    | none => exact .inl (by simp [State.startRender, h, hb, hc])
    | some c => exact .inr ⟨buf, c, hr, hb, rfl, by simp [State.startRender, h, hb, hc]⟩

/-- Everything a motion start can do (R44, R45, R46, R149). -/
theorem State.startMotion_cases (s : State) :
    s.startMotion = s ∨ ∃ c rest a, s.motion = none ∧ s.faulted = false ∧ s.mode = .online ∧ s.stops.any = false ∧
      s.queue = c :: rest ∧ c.state = .ready ∧ c.action = some a ∧
      ((c.flags.blocked = true ∧ s.startMotion = s.recordFault .dataCheck) ∨
        (c.flags.blocked = false ∧
          s.startMotion =
            { s with queue := { c with state := .printing } :: rest }.beginMotion false (!c.layers.isEmpty) a)) := by
  cases h : s.motionDue with
  | false => exact .inl (s.startMotion_of_not_due h)
  | true =>
    have h' := h
    simp only [State.motionDue, Bool.and_eq_true, Option.isNone_iff_eq_none, Bool.not_eq_true', beq_iff_eq] at h'
    obtain ⟨⟨⟨⟨hm, hf⟩, ho⟩, hs⟩, hq⟩ := h'
    cases hc : s.queue with
    | nil => simp [hc] at hq
    | cons c rest =>
      simp only [hc, Bool.and_eq_true, beq_iff_eq] at hq
      obtain ⟨a, ha⟩ := Option.isSome_iff_exists.1 hq.2
      refine .inr ⟨c, rest, a, hm, hf, ho, hs, rfl, hq.1, ha, ?_⟩
      cases hb : c.flags.blocked with
      | true => exact .inl ⟨rfl, by simp [State.startMotion, h, hc, hb]⟩
      | false => exact .inr ⟨rfl, by simp [State.startMotion, h, hc, hb, ha]⟩

end Sys2Proof.Machine
end

