-- ==== Sys2Proof/Laws/Parser.lean ====
section
/-! SUPPORT. What the parser and the path of a strobed byte can do. -/

namespace Sys2Proof.Machine

/-- The frame of the parser: only the parser record, the input buffer, the line queue, the sequence counter, the warnings, the form
image and the position, the code table and the loadable glyphs differ (R98 to R121). -/
def State.parserFrame (s t : State) : Prop :=
  t = { s with
    parser := t.parser, inputBuffer := t.inputBuffer, queue := t.queue, counter := t.counter, warnings := t.warnings
    form := t.form, line := t.line, formCount := t.formCount, overflow := t.overflow
    codeTable := t.codeTable, loadable := t.loadable }

theorem State.parserFrame.refl (s : State) : s.parserFrame s := rfl

theorem State.parserFrame.trans {s t u : State} (h : s.parserFrame t) (g : t.parserFrame u) : s.parserFrame u := by
  rw [State.parserFrame] at *
  rw [g, h]

/-- A warning is within the frame. -/
theorem State.raise_parserFrame (s : State) (w : Warning) : s.parserFrame (s.raise w) := rfl

theorem State.raiseAll_parserFrame (s : State) (ws : List Warning) : s.parserFrame (s.raiseAll ws) := by
  induction ws generalizing s with
  | nil => exact .refl s
  | cons w ws ih => exact (s.raise_parserFrame w).trans (ih (s.raise w))

theorem State.offerLayer_parserFrame (s : State) (l : Layer) (m : Mark) (b : Bool) :
    s.parserFrame (s.offerLayer l m b) := by
  unfold State.offerLayer
  split
  · exact State.parserFrame.trans (t := s.onOpen (Composite.offer l m b)) rfl (State.raiseAll_parserFrame _ _)
  · exact .refl s

theorem State.finishPrint_parserFrame (s : State) (o : RecordOrder) (b : Bool) : s.parserFrame (s.finishPrint o b) := by
  unfold State.finishPrint
  refine (s.offerLayer_parserFrame (s.parser.layer.getD (.fresh s.straps.effective)).complete
    (s.parser.layer.getD (.fresh s.straps.effective)).mark b).trans ?_
  cases lineAction o <;> rfl

theorem State.finishRecord_parserFrame (s : State) (o : RecordOrder) : s.parserFrame (s.finishRecord o) := by
  cases o with
  | printSpace k => exact s.finishPrint_parserFrame (.printSpace k) false
  | printSkip c => exact s.finishPrint_parserFrame (.printSkip c) false
  | loadForm => show s.parserFrame s.finishForm; unfold State.finishForm; split <;> rfl
  | loadCodes =>
    show s.parserFrame s.finishCodes
    unfold State.finishCodes
    split
    · split <;> rfl
    · rfl
  | loadGlyph =>
    show s.parserFrame s.finishGlyph
    unfold State.finishGlyph
    split
    · split <;> rfl
    · rfl
  | moveSpace k => rfl
  | moveSkip c => rfl
  | checkBlank => rfl
  | checkBlock => rfl

theorem State.withRemaining_parserFrame (s : State) (o : RecordOrder) (n : Nat) : s.parserFrame (s.withRemaining o n) := by
  unfold State.withRemaining
  simp only
  split
  · exact State.parserFrame.trans (t := { s with parser := { s.parser with remaining := some n } }) rfl
      (State.finishRecord_parserFrame _ _)
  · rfl

theorem State.printByte_parserFrame (s : State) (v : Byte) : s.parserFrame (s.printByte v) := by
  unfold State.printByte
  simp only
  split
  · rfl
  · split
    · rfl
    · split <;> rfl

theorem State.bodyByte_parserFrame (s : State) (o : RecordOrder) (v : Byte) : s.parserFrame (s.bodyByte o v) := by
  unfold State.bodyByte
  cases o <;> simp only
  case printSpace | printSkip =>
    split
    · exact State.parserFrame.trans (by rfl) (State.withRemaining_parserFrame _ _ _)
    · exact (s.printByte_parserFrame v).trans (State.withRemaining_parserFrame _ _ _)
  case loadForm | loadCodes =>
    split
    · rfl
    · exact State.parserFrame.trans (by rfl) (State.withRemaining_parserFrame _ _ _)
    · exact State.parserFrame.trans (by rfl) (State.withRemaining_parserFrame _ _ _)
  case loadGlyph => exact State.parserFrame.trans (by rfl) (State.withRemaining_parserFrame _ _ _)
  case moveSpace | moveSkip | checkBlank | checkBlock => exact .refl s

theorem State.takeLine_parserFrame (s : State) (o : RecordOrder) : s.parserFrame (s.takeLine o) := by
  unfold State.takeLine
  split
  · rfl
  · split <;> rfl

theorem State.lineOrder_parserFrame (s : State) (o : RecordOrder) : s.parserFrame (s.lineOrder o) := by
  unfold State.lineOrder
  split
  · exact s.takeLine_parserFrame o
  · split
    · exact State.parserFrame.trans (t := s.createComposite) rfl (State.takeLine_parserFrame _ _)
    · rfl

theorem State.drainOrder_parserFrame (s : State) (o : RecordOrder) : s.parserFrame (s.drainOrder o) := by
  unfold State.drainOrder
  split <;> rfl

theorem State.startRecord_parserFrame (s : State) (o : RecordOrder) : s.parserFrame (s.startRecord o) := by
  cases o with
  | printSpace k => exact s.lineOrder_parserFrame _
  | printSkip c => exact s.lineOrder_parserFrame _
  | moveSpace k => exact s.lineOrder_parserFrame _
  | moveSkip c => exact s.lineOrder_parserFrame _
  | loadForm => exact s.drainOrder_parserFrame _
  | loadGlyph => exact s.drainOrder_parserFrame _
  | loadCodes => rfl
  | checkBlank => rfl
  | checkBlock => rfl

theorem State.endShort_parserFrame (s : State) : s.parserFrame s.endShort := by
  unfold State.endShort
  split
  · split
    · exact s.finishPrint_parserFrame _ _
    · rfl
  · rfl

theorem State.takeOrder_parserFrame (s : State) (v : Byte) : s.parserFrame (s.takeOrder v) := by
  have h : s.parserFrame (match s.parser.state with | .body | .awaitDrain => s.endShort | _ => s) := by
    split
    · exact s.endShort_parserFrame
    · exact s.endShort_parserFrame
    · exact .refl s
  unfold State.takeOrder
  simp only
  cases decodeRecordOrder v with
  | some o => exact h.trans (State.startRecord_parserFrame _ o)
  | none => exact h.trans (State.raise_parserFrame _ _)

theorem State.takeData_parserFrame (s : State) (v : Byte) : s.parserFrame (s.takeData v) := by
  unfold State.takeData
  split
  · exact s.bodyByte_parserFrame _ v
  · rfl

theorem State.runParser_parserFrame (n : Nat) (s : State) : s.parserFrame (s.runParser n) := by
  induction n generalizing s with
  | zero => exact .refl s
  | succ n ih =>
    unfold State.runParser
    cases hb : s.inputBuffer with
    | nil => exact .refl s
    | cons b rest =>
      simp only
      split
      · refine State.parserFrame.trans (t := { s with inputBuffer := rest }) rfl ?_
        split
        · exact (State.takeOrder_parserFrame _ _).trans (ih _)
        · exact (State.takeData_parserFrame _ _).trans (ih _)
      · exact .refl s

/-- The parser changes nothing outside its frame. -/
theorem State.parse_parserFrame (s : State) : s.parserFrame s.parse := s.runParser_parserFrame _

/-- The parser with nothing in the buffer does nothing. -/
theorem State.parse_of_empty {s : State} (h : s.inputBuffer = []) : s.parse = s := by
  simp [State.parse, h, State.runParser]

/-- One waiting byte that the parser's state takes is taken and leaves the buffer (R99, R155). -/
theorem State.parse_one {s : State} {b : PortByte} (h : s.inputBuffer = [b]) (ht : s.parser.takes b = true) :
    s.parse =
      if b.order then ({ s with inputBuffer := [] } : State).takeOrder b.value
      else ({ s with inputBuffer := [] } : State).takeData b.value := by
  simp [State.parse, h, State.runParser, ht]

/-- A byte received into an empty buffer and taken at once (R99, R155). -/
theorem State.receive_taken {s : State} {b : PortByte} (h : s.inputBuffer = []) (ht : s.parser.takes b = true) :
    s.receive b = if b.order then s.takeOrder b.value else s.takeData b.value := by
  have e : ({ s with inputBuffer := [] } : State) = s := by cases s; simp_all
  have l : s.inputBuffer.length < 2 := by simp [h]
  have hp := State.parse_one (s := { s with inputBuffer := s.inputBuffer ++ [b] }) (b := b) (by simp [h]) ht
  simp only [e] at hp
  rw [State.receive, if_pos l, hp]

/-- A byte received into a full buffer is lost to overrun (R156). -/
theorem State.receive_full {s : State} {b : PortByte} (h : s.inputBuffer.length = 2) :
    s.receive b = s.recordFault .inputOverrun := by
  simp [State.receive, h]

/-- A composite is OPEN exactly when it is the one `onOpen` changes; here it is known as the newest (R4). -/
theorem State.onOpen_newest {s : State} {q : List Composite} {c : Composite} (f : Composite → Composite)
    (hq : s.queue = q ++ [c]) (hpre : ∀ x ∈ q, x.state ≠ .opened) (hc : c.state = .opened) :
    s.onOpen f = { s with queue := q ++ [f c] } := by
  unfold State.onOpen
  rw [hq, updateFirst_append (by simpa using hpre) (by simp [hc])]

/-- A layer offered to the newest composite, OPEN (R104). -/
theorem State.offerLayer_newest {s : State} {q : List Composite} {c : Composite} (l : Layer) (m : Mark) (b : Bool)
    (hq : s.queue = q ++ [c]) (hpre : ∀ x ∈ q, x.state ≠ .opened) (hc : c.state = .opened) :
    s.offerLayer l m b = ({ s with queue := q ++ [c.offer l m b] } : State).raiseAll (c.offerWarnings m b) := by
  unfold State.offerLayer
  rw [hq, find?_append_first (by simpa using hpre) (by simp [hc]), s.onOpen_newest _ hq hpre hc]

/-- Raising in a row only changes the warning set. -/
theorem State.raiseAll_eq (s : State) (ws : List Warning) :
    s.raiseAll ws = { s with warnings := ws.foldl (fun l w => addOnce w l) s.warnings } := by
  induction ws generalizing s with
  | nil => rfl
  | cons w ws ih => exact (ih (s.raise w)).trans rfl

end Sys2Proof.Machine
end

