-- ==== Sys2Proof/Laws/Frame.lean ====
section
/-! SUPPORT. What the taking of the due steps leaves as it is, and what a step with no command waiting does. -/

namespace Sys2Proof.Machine

/-- The frame of the due steps: the port's lines and strobe, the modes, stops and intervals, the interlocks' levels, the sense read,
the straps, the step record, the latches, the clock and the waiting commands are as they were (R8, R44, R69, R112, R140). -/
def State.momentFrame (s t : State) : Prop :=
  t = { s with
    parser := t.parser, inputBuffer := t.inputBuffer, queue := t.queue, counter := t.counter, warnings := t.warnings
    form := t.form, line := t.line, formCount := t.formCount, overflow := t.overflow
    codeTable := t.codeTable, loadable := t.loadable
    bufA := t.bufA, bufB := t.bufB, render := t.render, motion := t.motion, plan := t.plan
    stepDrive := t.stepDrive, frameDelay := t.frameDelay, faults := t.faults, faultLow := t.faultLow
    inputs := t.inputs, frameMoment := t.frameMoment }

theorem State.momentFrame.refl (s : State) : s.momentFrame s := rfl

theorem State.momentFrame.trans {s t u : State} (h : s.momentFrame t) (g : t.momentFrame u) : s.momentFrame u := by
  rw [State.momentFrame] at *
  rw [g, h]

/-- What the parser leaves, the due steps leave. -/
theorem State.parserFrame.moment {s t : State} (h : s.parserFrame t) : s.momentFrame t := by
  rw [State.parserFrame] at h
  rw [h]
  rfl

theorem State.grantPlace_momentFrame (s : State) : s.momentFrame s.grantPlace := by
  obtain h | ⟨o, -, -, -, -, h⟩ := s.grantPlace_cases <;> rw [h]
  · exact .refl s
  · exact ((s.lineOrder_parserFrame o).trans (s.lineOrder o).parse_parserFrame).moment

theorem State.endDrain_momentFrame (s : State) : s.momentFrame s.endDrain := by
  obtain h | ⟨o, -, -, -, h⟩ := s.endDrain_cases <;> rw [h]
  · exact .refl s
  · exact State.momentFrame.trans (t := s.enterBody o) rfl (s.enterBody o).parse_parserFrame.moment

theorem State.startRender_momentFrame (s : State) : s.momentFrame s.startRender := by
  obtain h | ⟨_, _, -, -, -, h⟩ := s.startRender_cases <;> rw [h] <;> rfl

theorem State.startMotion_momentFrame (s : State) : s.momentFrame s.startMotion := by
  obtain h | ⟨_, _, _, -, -, -, -, -, -, -, ⟨-, h⟩ | ⟨-, h⟩⟩ := s.startMotion_cases <;> rw [h] <;> rfl

/-- Catching up changes nothing outside the frame of the due steps (log 5). -/
theorem State.catchUp_momentFrame (s : State) : s.momentFrame s.catchUp :=
  State.momentFrame.trans (t := s.releaseKeys) rfl <|
    s.releaseKeys.grantPlace_momentFrame.trans <|
    (State.endDrain_momentFrame _).trans <| (State.startRender_momentFrame _).trans <|
    (State.startMotion_momentFrame _).trans rfl

/-- The byte a read strobe drives is held through the steps due (R169). -/
@[simp] theorem State.catchUp_pd (s : State) : s.catchUp.pd = s.pd := by rw [s.catchUp_momentFrame]
@[simp] theorem State.catchUp_strobe (s : State) : s.catchUp.strobe = s.strobe := by rw [s.catchUp_momentFrame]
@[simp] theorem State.catchUp_senseRead (s : State) : s.catchUp.senseRead = s.senseRead := by rw [s.catchUp_momentFrame]
@[simp] theorem State.catchUp_pending (s : State) : s.catchUp.pending = s.pending := by rw [s.catchUp_momentFrame]
@[simp] theorem State.catchUp_straps (s : State) : s.catchUp.straps = s.straps := by rw [s.catchUp_momentFrame]
@[simp] theorem State.catchUp_rstLow (s : State) : s.catchUp.rstLow = s.rstLow := by rw [s.catchUp_momentFrame]
@[simp] theorem State.catchUp_mode (s : State) : s.catchUp.mode = s.mode := by rw [s.catchUp_momentFrame]
@[simp] theorem State.catchUp_pinitLowSince (s : State) : s.catchUp.pinitLowSince = s.pinitLowSince := by
  rw [s.catchUp_momentFrame]
@[simp] theorem State.catchUp_headLatch (s : State) : s.catchUp.headLatch = s.headLatch := by rw [s.catchUp_momentFrame]
@[simp] theorem State.catchUp_clock (s : State) : s.catchUp.clock = s.clock := by rw [s.catchUp_momentFrame]
@[simp] theorem State.catchUp_statusReadOpen (s : State) : s.catchUp.statusReadOpen = s.statusReadOpen := by
  simp [State.statusReadOpen]

/-- With no status read in progress a step on an empty queue takes the due steps alone (logs 5 and 17). -/
theorem State.tick_of_not_open {s : State} (h : s.statusReadOpen = false) : s.tick = s.catchUp := by
  simp [State.tick, State.endStatusRead, h]

/-- A status read in progress has its rise with a step on an empty queue: the data lines are released (R169, log 17). -/
theorem State.tick_of_open {s : State} (h : s.statusReadOpen = true) :
    s.tick = { s.catchUp with strobe := .none, pd := 0xFF } := by
  simp [State.tick, State.endStatusRead, State.readOver, h]

end Sys2Proof.Machine
end

