-- ==== Sys2Proof/Laws/Ops.lean ====
section
/-! SUPPORT. What the shared operations on motions, stops, the queue and the FAULT line can do, each said once. -/

namespace Sys2Proof.Machine

/-! ## Cutoff and its end -/

@[simp] theorem Motion.cut_feed (now : Micros) (m : Motion) : (m.cut now).feed = m.feed := rfl
@[simp] theorem Motion.cut_distance (now : Micros) (m : Motion) : (m.cut now).distance = m.distance := rfl
@[simp] theorem Motion.cut_steps (now : Micros) (m : Motion) : (m.cut now).steps = m.steps := rfl
@[simp] theorem Motion.cut_firing (now : Micros) (m : Motion) : (m.cut now).firing = m.firing := rfl
@[simp] theorem Motion.cut_row (now : Micros) (m : Motion) : (m.cut now).row = m.row.cut now := rfl
@[simp] theorem Motion.cut_timer (now : Micros) (m : Motion) : (m.cut now).timer = m.timer.hold now := rfl
@[simp] theorem Motion.resume_feed (now : Micros) (m : Motion) : (m.resume now).feed = m.feed := rfl
@[simp] theorem Motion.resume_distance (now : Micros) (m : Motion) : (m.resume now).distance = m.distance := rfl
@[simp] theorem Motion.resume_steps (now : Micros) (m : Motion) : (m.resume now).steps = m.steps := rfl
@[simp] theorem Motion.resume_firing (now : Micros) (m : Motion) : (m.resume now).firing = m.firing := rfl
@[simp] theorem Motion.resume_row (now : Micros) (m : Motion) : (m.resume now).row = m.row.resume now := rfl
@[simp] theorem Motion.resume_timer (now : Micros) (m : Motion) : (m.resume now).timer = m.timer.resume now := rfl

/-- Cutoff leaves no row FIRING (R53). -/
theorem Row.cut_ne_firing (now x : Micros) (r : Row) : r.cut now ≠ .firing x := by cases r <;> simp [Row.cut]

/-- Cutoff neither begins nor ends a row: NONE stays NONE (R53). -/
theorem Row.cut_eq_none (now : Micros) (r : Row) : r.cut now = .none ↔ r = .none := by cases r <;> simp [Row.cut]

/-- The end of a fault neither begins nor ends a row (R53). -/
theorem Row.resume_eq_none (now : Micros) (r : Row) : r.resume now = .none ↔ r = .none := by cases r <;> simp [Row.resume]

/-- No frame timer runs after cutoff (R57). -/
theorem FrameTimer.hold_ne_running (now x : Micros) (t : FrameTimer) : t.hold now ≠ .running x := by
  cases t <;> simp [FrameTimer.hold]

/-- A frame timer is stopped after cutoff exactly when it was (R57). -/
theorem FrameTimer.hold_eq_stopped (now : Micros) (t : FrameTimer) : t.hold now = .stopped ↔ t = .stopped := by
  cases t <;> simp [FrameTimer.hold]

/-- A frame timer is stopped after a rise of FAULT exactly when it was (R57). -/
theorem FrameTimer.resume_eq_stopped (now : Micros) (t : FrameTimer) : t.resume now = .stopped ↔ t = .stopped := by
  cases t <;> simp [FrameTimer.resume]

/-- The station is faulted after it records a fault (R143). -/
@[simp] theorem State.recordFault_faulted (s : State) (f : FaultKind) : (s.recordFault f).faulted = true := by
  simp [State.faulted]

/-- The head is off after cutoff (R144). -/
@[simp] theorem State.cutoff_fireOn (s : State) : s.cutoff.fireOn = false := by
  cases hm : s.motion with
  | none => simp [State.fireOn, hm]
  | some m => cases hr : m.row <;> simp [State.fireOn, hm, hr, Row.cut]

/-- The head is off after a fault is recorded (R144). -/
@[simp] theorem State.recordFault_fireOn (s : State) (f : FaultKind) : (s.recordFault f).fireOn = false :=
  s.cutoff_fireOn

/-- Cutoff of a station at a boundary. -/
theorem State.cutoff_of_boundary {s : State} (h : s.motion = none) :
    s.cutoff = { s with faultLow := true, stepDrive := .held } := by
  simp [State.cutoff, h]

/-! ## The queue -/

/-- Everything the departure of the oldest composite can do (R18, R76). -/
theorem State.departOldest_cases (s : State) :
    (s.queue = [] ∧ s.departOldest = s) ∨ ∃ c rest, s.queue = c :: rest ∧
      s.departOldest = { s with queue := rest, bufA := s.bufA.freeOf c.seq, bufB := s.bufB.freeOf c.seq } := by
  unfold State.departOldest
  cases s.queue with
  | nil => exact .inl ⟨rfl, rfl⟩
  | cons c rest => exact .inr ⟨c, rest, rfl, rfl⟩

/-- Everything the freeing of the oldest composite's buffer can do (R75). -/
theorem State.freeOldestBuffer_cases (s : State) :
    (s.queue = [] ∧ s.freeOldestBuffer = s) ∨ ∃ c rest, s.queue = c :: rest ∧
      s.freeOldestBuffer =
        { s with
          queue := { c with buffer := none } :: rest, bufA := s.bufA.freeOf c.seq, bufB := s.bufB.freeOf c.seq } := by
  unfold State.freeOldestBuffer
  cases s.queue with
  | nil => exact .inl ⟨rfl, rfl⟩
  | cons c rest => exact .inr ⟨c, rest, rfl, rfl⟩

@[simp] theorem ImageBuffer.free_holder (b : ImageBuffer) : b.free.holder = none := rfl
@[simp] theorem ImageBuffer.free_image (b : ImageBuffer) : b.free.image = b.image := rfl
@[simp] theorem ImageBuffer.freeOf_image (b : ImageBuffer) (q : BitVec 7) : (b.freeOf q).image = b.image := by
  unfold ImageBuffer.freeOf; split <;> rfl
@[simp] theorem ImageBuffer.freeOf_holder (b : ImageBuffer) (q : BitVec 7) :
    (b.freeOf q).holder = if b.holder = some q then none else b.holder := by
  unfold ImageBuffer.freeOf; split <;> simp_all

@[simp] theorem unblock_length (q : List Composite) : (unblock q).length = q.length := by simp [unblock]

/-! ## Stops and motions -/

@[simp] theorem StopSet.any_empty : StopSet.any {} = false := rfl

/-- Everything the pending stops can do (R58): KSTOP wins over HOLD and DISCARD, and PAPER records PAPER OUT beside them. -/
theorem State.applyStops_eq (s : State) :
    s.applyStops =
      (let u : State :=
        { s with
          stops := {}
          mode := if s.stops.kstop then .stopped else if s.stops.hold || s.stops.discard then .held else s.mode }
       if s.stops.paper then u.recordFault .paperOut else u) := rfl

/-- The withdrawal of a motion (R59). -/
theorem State.withdraw_of_motion {s : State} {m : Motion} (h : s.motion = some m) :
    s.withdraw =
      { s.dropMotion with
        queue := if m.feed then s.queue else
          match s.queue with
          | c :: rest => { c with state := .ready } :: rest
          | [] => [] } := by
  cases hq : s.queue <;> simp [State.withdraw, h, hq]

/-- Everything the adding of a stop can do (R58, R59, R131). -/
theorem State.addStop_cases (s : State) (t : Stop) :
    (s.motion = none ∧ s.addStop t = ({ s with stops := s.stops.add t } : State).applyStops) ∨
      (∃ m, s.motion = some m ∧ m.steps = 0 ∧
        s.addStop t = ({ s with stops := s.stops.add t } : State).withdraw.applyStops) ∨
      ∃ m, s.motion = some m ∧ 1 ≤ m.steps ∧ s.addStop t = { s with stops := s.stops.add t } := by
  unfold State.addStop
  cases hm : s.motion with
  | none => exact .inl ⟨rfl, rfl⟩
  | some m =>
    by_cases h : m.steps = 0
    · exact .inr (.inl ⟨m, rfl, h, by simp [h]⟩)
    · exact .inr (.inr ⟨m, rfl, by omega, by simp [h]⟩)

/-- The conclusion of a motion (R56). -/
theorem State.conclude_of_motion {s : State} {m : Motion} (h : s.motion = some m) :
    s.conclude = (if m.feed then s.applyPlan else s.applyPlan.departOldest).dropMotion.applyStops := by
  simp [State.conclude, h]

/-- The plan applied (R39). -/
theorem State.applyPlan_of_plan {s : State} {p : Plan} (h : s.plan = some p) :
    s.applyPlan =
      { s with line := p.landing, formCount := s.formCount + BitVec.ofNat 16 p.increase, overflow := p.overflow } := by
  simp [State.applyPlan, h]

/-- The abandonment of a motion by KTOF (R22, R65). -/
theorem State.abandonMotion_of_motion {s : State} {m : Motion} (h : s.motion = some m) :
    s.abandonMotion = (if m.feed then s else s.departOldest).dropMotion := by
  simp [State.abandonMotion, h]

@[simp] theorem State.abandonMotion_of_boundary {s : State} (h : s.motion = none) : s.abandonMotion = s := by
  simp [State.abandonMotion, h]

/-- Everything the removal of the composites can do: nothing of the queue is left, or one composite whose motion has stepped,
renumbered 127 (R19, R20, R62, R63). -/
theorem State.removeComposites_cases (s : State) (fires : Bool) :
    let cleared : State :=
      { s with counter := 0, render := none, queue := [], bufA := s.bufA.free, bufB := s.bufB.free }
    (s.motion = none ∧ s.removeComposites fires = cleared) ∨
      (∃ m, s.motion = some m ∧ m.steps = 0 ∧ s.removeComposites fires = cleared.dropMotion) ∨
      (∃ m, s.motion = some m ∧ 1 ≤ m.steps ∧ (m.feed = true ∨ s.queue = []) ∧ s.removeComposites fires = cleared) ∨
      ∃ m c rest, s.motion = some m ∧ 1 ≤ m.steps ∧ m.feed = false ∧ s.queue = c :: rest ∧
        s.removeComposites fires =
          if fires then
            { s with
              counter := 0
              render := none
              queue := [{ c with seq := 127 }]
              bufA := { s.bufA with holder := if s.bufA.holder = some c.seq then some 127 else none }
              bufB := { s.bufB with holder := if s.bufB.holder = some c.seq then some 127 else none } }
          else
            { cleared with
              queue := [{ c with seq := 127, buffer := none }]
              motion := some { m with firing := false, row := .none } } := by
  simp only
  unfold State.removeComposites
  cases hm : s.motion with
  | none => exact .inl ⟨rfl, by simp⟩
  | some m =>
    by_cases h0 : m.steps = 0
    · exact .inr (.inl ⟨m, rfl, h0, by simp [h0, State.dropMotion]⟩)
    · have h1 : 1 ≤ m.steps := by omega
      cases hf : m.feed with
      | true => exact .inr (.inr (.inl ⟨m, rfl, h1, .inl hf, by simp [h0, hf]⟩))
      | false =>
        cases hq : s.queue with
        | nil => exact .inr (.inr (.inl ⟨m, rfl, h1, .inr rfl, by simp [h0]⟩))
        | cons c rest =>
          exact .inr (.inr (.inr ⟨m, c, rest, rfl, h1, hf, rfl, by cases fires <;> simp [h0, hf]⟩))

end Sys2Proof.Machine
end

