-- ==== Sys2Proof/Laws/Strobes.lean ====
section
/-! SUPPORT. What a strobe does to a station that takes it, and what a next byte meets. -/

namespace Sys2Proof.Machine

/-- A write strobe at a station that takes it leaves the strobed state (R154, R166, R169). -/
theorem State.writeRise_of_answers {s : State} (h : s.answers = true) : s.writeRise = s.strobed := by
  simp [State.writeRise, State.strobed, h]

/-- A station that takes record strobes receives the byte (R154). -/
theorem State.strobeRecord_taken {s : State} (b : PortByte) (ha : s.answers = true) (hm : s.mode.working = true) :
    s.strobeRecord b = s.strobed.receive b := by
  simp [State.strobeRecord, ha, hm, State.writeRise_of_answers ha]

/-- A station that takes no record strobe is left with the strobe over (R127, R154). -/
theorem State.strobeRecord_passed {s : State} (b : PortByte) (h : s.answers = false ∨ s.mode.working = false) :
    s.strobeRecord b = s.writeRise := by
  rcases h with h | h <;> simp [State.strobeRecord, h]

theorem State.takesOrders_iff (s : State) :
    s.takesOrders = true ↔ s.quiet = true ∧ s.answers = true ∧ s.mode.working = true ∧ s.inputBuffer = [] ∧
      s.parser.state = .idle := by
  simp [State.takesOrders, and_assoc]

theorem State.takesBody_iff (s : State) (o : RecordOrder) :
    s.takesBody o = true ↔ s.quiet = true ∧ s.answers = true ∧ s.mode.working = true ∧ s.inputBuffer = [] ∧
      s.parser.state = .body ∧ s.parser.order = some o := by
  simp [State.takesBody, and_assoc]

/-- The order byte of a control order is that order, and never reaches the parser (R158, R170). -/
@[simp] theorem strobeOrder_control (c : ControlOrder) (s : State) :
    strobeOrder (encodeControlOrder c) s = controlStrobe c s := by cases c <;> rfl

/-- An order byte that is no control order goes to the input buffer (R154). -/
theorem strobeOrder_record {v : Byte} (h : decodeControlOrder v = none) (s : State) :
    strobeOrder v s = s.catchUp.strobeRecord { value := v, order := true } := by simp [strobeOrder, h]

/-- The order byte of a record order is no control order (R170). -/
theorem decodeControlOrder_of_record {v : Byte} {o : RecordOrder} (h : decodeRecordOrder v = some o) :
    decodeControlOrder v = none := by
  unfold decodeRecordOrder at h
  unfold decodeControlOrder
  simp only at h ⊢
  split at h
  · rename_i hv; rw [if_neg, if_neg, if_neg, if_neg] <;> omega
  · split at h
    · rename_i hv; rw [if_neg, if_neg, if_neg, if_neg] <;> omega
    · split at h
      · rename_i hv; rw [if_neg, if_neg, if_neg, if_neg] <;> omega
      · split at h
        · rename_i hv; rw [if_neg, if_neg, if_neg, if_neg] <;> omega
        · rw [if_neg, if_neg, if_neg, if_neg] <;> (intro hv; simp [hv] at h)

/-- A value of R170's list of unknown values is no control order. -/
theorem decodeControlOrder_of_unknown {v : Byte} (h : unknownOrderValue v = true) : decodeControlOrder v = none := by
  unfold unknownOrderValue at h
  unfold decodeControlOrder
  simp only at h ⊢
  rw [if_neg, if_neg, if_neg, if_neg] <;> (intro hv; simp [hv] at h)

/-- An order byte strobed to a station whose parser is IDLE with nothing waiting is taken at once (R99, R101). -/
theorem strobeOrder_idle {s : State} {v : Byte} (hc : decodeControlOrder v = none) (h : s.takesOrders = true) :
    strobeOrder v s =
      match decodeRecordOrder v with
      | some o => s.strobed.startRecord o
      | none => s.strobed.raise .orderError := by
  obtain ⟨hq, ha, hm, hb, hp⟩ := s.takesOrders_iff.1 h
  rw [strobeOrder_record hc, State.catchUp_of_quiet hq, State.strobeRecord_taken _ ha hm,
    State.receive_taken (by simpa using hb) (by simp [Parser.takes, hp])]
  cases hd : decodeRecordOrder v <;> simp [State.takeOrder, hp, hd]

/-- A data byte strobed to an IDLE parser with nothing waiting is stray (R118). -/
theorem execDataByte_idle {s : State} (v : Byte) (h : s.takesOrders = true) :
    execDataByte v s = .next (s.strobed.raise .orderError) := by
  obtain ⟨hq, ha, hm, hb, hp⟩ := s.takesOrders_iff.1 h
  rw [execDataByte, State.catchUp_of_quiet hq, State.strobeRecord_taken _ ha hm,
    State.receive_taken (by simpa using hb) (by simp [Parser.takes, hp])]
  simp [State.takeData, hp]

/-- A data byte strobed in BODY with nothing waiting is a body byte (R102). -/
theorem execDataByte_body {s : State} {o : RecordOrder} (v : Byte) (h : s.takesBody o = true) :
    execDataByte v s = .next (s.strobed.bodyByte o v) := by
  obtain ⟨hq, ha, hm, hb, hp, ho⟩ := (s.takesBody_iff o).1 h
  rw [execDataByte, State.catchUp_of_quiet hq, State.strobeRecord_taken _ ha hm,
    State.receive_taken (by simpa using hb) (by simp [Parser.takes, hp])]
  simp [State.takeData, hp, ho]

/-- A control order at a station that takes strobes: its effect in the working modes, or in FORMING (R127, R158). -/
theorem strobeControl_taken {s : State} (forming acts : State → State) (hq : s.quiet = true) (ha : s.answers = true) :
    strobeControl forming acts s = if s.mode.working then acts s.strobed else forming s.strobed := by
  have e : s.strobed.answers = s.answers := rfl
  simp [strobeControl, State.catchUp_of_quiet hq, State.writeRise_of_answers ha, e, ha]

/-- A control order at a station that takes no strobe does nothing more (R154). -/
theorem strobeControl_passed {s : State} (forming acts : State → State) (hq : s.quiet = true) (ha : s.answers = false) :
    strobeControl forming acts s = s.writeRise := by
  have e : s.writeRise.answers = s.answers := rfl
  simp [strobeControl, State.catchUp_of_quiet hq, e, ha]

end Sys2Proof.Machine
end

