-- ==== Sys2Proof/Tests/Slice0.lean ====
section
/-! SUPPORT. The model's own tests: the checks of WellFormed, order bytes read from R170's table, at most two small steps of
each command with the results the rules give, and for each statement that has hypotheses a witness that meets them. -/

open Sys2Proof Sys2Proof.Machine

namespace Sys2Proof.Tests

/-! ## Small states -/

/-- The state after a command. -/
def after (i : Instr) (s : State) : State :=
  match exec i s with
  | .next t => t
  | .fault _ => s
  | .refused _ => s

/-- A station of eight columns from column 1 with station number 3 in a mode, with nothing queued. -/
def idle (m : Mode) : State :=
  { State.reset with
    rstLow := false, mode := m, warnings := []
    straps := { station := 3, fcol := 1, width := 8, rate := 0, fire := 0 }
    inputs := { joinHigh := m.working } }

/-- A composite of sequence `q` in a state, with `n` empty layers, an action and a buffer. -/
def comp (q : Nat) (st : CompState) (n : Nat) (a : Option Action) (b : Option Buf) : Composite :=
  { seq := BitVec.ofNat 7 q, state := st, layers := List.replicate n (List.replicate 8 .blank), action := a, buffer := b }

/-- An ONLINE station that prints one line, SPACE 1 on the default form, with `s` steps taken and a row and timer as given. -/
def printing (s : Nat) (r : Row) (t : FrameTimer) : State :=
  { idle .online with
    queue := [comp 9 .printing 1 (some (.space 1)) (some .a)]
    counter := 10
    bufA := { holder := some 9 }
    plan := some (FormImage.default.planFor 0 false (.space 1))
    motion := some { feed := false, distance := 12, steps := s, firing := true, row := r, timer := t } }

/-- The same motion with its buffer given back, as after its row-8 fire (R75). -/
def slewing (s : Nat) (t : FrameTimer) : State :=
  { printing s .none t with queue := [comp 9 .printing 1 (some (.space 1)) none], bufA := {} }

/-- A station in a mode with a FEED motion of one line in progress, `s` steps taken. -/
def feeding (m : Mode) (s : Nat) : State :=
  { idle m with
    plan := some (FormImage.default.planFor 0 false (.skip 1))
    motion := some { feed := true, distance := 792, steps := s, firing := false } }

/-- A STOPPED station within an answered read strobe, its status byte driven (R160). -/
def statusDriven : State := after (.pstrFall (.read {})) (idle .stopped)

/-- A station whose parser is in BODY of an order, its layer fresh for a PRINT. -/
def taking (o : RecordOrder) : State :=
  { idle .online with
    queue := [comp 0 .opened 1 none none]
    counter := 1
    parser := { state := .body, order := some o, layer := if isPrint o then some (.fresh 8) else none } }

/-- A station that reads its sense record: index `i`, winner or not, ORDER ERROR held in the snapshot. -/
def reading (i : Nat) (w : Bool) : State :=
  { idle .online with
    warnings := [.orderError]
    senseRead := some { snapshot := (idle .online).snapshot, kinds := [.orderError], index := i, winner := w } }

/-- A queue of four zero-layer composites ahead of an idle parser: no place is free (R7). -/
def full : State :=
  { idle .held with queue := (List.range 4).map (fun q => comp q .ready 0 (some (.space 1)) none), counter := 4 }

/-- A faulted copy of a state, by a fault of its own. -/
def withFault (f : FaultKind) (s : State) : State := { s with faults := [f], faultLow := true }

/-! ## Well-formed commands -/

/-- Each operand check refuses an ill-formed command (R170, R165). -/
theorem test_wf_refuses :
    Instr.wf (.printSpace 4) = false ∧ Instr.wf (.printSkip 0) = false ∧ Instr.wf (.printSkip 13) = false ∧
      Instr.wf (.moveSpace 0) = false ∧ Instr.wf (.moveSpace 4) = false ∧ Instr.wf (.moveSkip 0) = false ∧
      Instr.wf (.moveSkip 13) = false ∧ Instr.wf (.unknownOrder 0x10) = false ∧ Instr.wf (.unknownOrder 0x04) = false ∧
      Instr.wf (.arbitrationRead { lowest := 32 }) = false ∧ Instr.wf (.pstrFall (.read { lowest := 32 })) = false := by decide

/-- Well-formed commands pass (R170, R165). -/
theorem test_wf_accepts :
    Instr.wf (.printSpace 0) = true ∧ Instr.wf (.printSkip 12) = true ∧ Instr.wf (.moveSpace 3) = true ∧
      Instr.wf (.moveSkip 1) = true ∧ Instr.wf (.unknownOrder 0x20) = true ∧ Instr.wf (.arbitrationRead {}) = true ∧
      Instr.wf (.pstrFall (.read { lowest := 31, held := 0x37 })) = true := by
  decide

/-! ## Order bytes, bit by bit from R170's table -/

theorem test_order_print_space_2 : decodeRecordOrder 0b00010010 = some (.printSpace 2) := by decide
theorem test_order_print_skip_12 : decodeRecordOrder 0b00101100 = some (.printSkip 12) := by decide
theorem test_order_move_space_1 : decodeRecordOrder 0b00110001 = some (.moveSpace 1) := by decide
theorem test_order_move_skip_1 : decodeRecordOrder 0b01000001 = some (.moveSkip 1) := by decide
theorem test_order_loads :
    decodeRecordOrder 0b01010000 = some .loadForm ∧ decodeRecordOrder 0b01010001 = some .loadCodes ∧
      decodeRecordOrder 0b01010010 = some .loadGlyph := by decide
theorem test_order_checks :
    decodeRecordOrder 0b01011000 = some .checkBlank ∧ decodeRecordOrder 0b01011001 = some .checkBlock := by decide
theorem test_order_unknown :
    decodeRecordOrder 0x20 = none ∧ decodeRecordOrder 0x30 = none ∧ decodeRecordOrder 0x40 = none ∧
      decodeRecordOrder 0x14 = none ∧ decodeRecordOrder 0x5A = none := by decide

/-! ## Record strobes -/

/-- PRINT SPACE 1 on an empty queue: one OPEN composite of sequence 0, the counter at 1, the parser in BODY (R5, R7). -/
theorem test_print_space_creates :
    ((after (.printSpace 1) (idle .online)).queue.map fun c => (c.seq, c.state)) = [(0, .opened)] ∧
      (after (.printSpace 1) (idle .online)).counter = 1 ∧ (after (.printSpace 1) (idle .online)).parser.state = .body := by
  decide
/-- With four composites and none OPEN, the order waits (R7). -/
theorem test_print_skip_waits : (after (.printSkip 1) full).parser.state = .awaitPlace ∧ (after (.printSkip 1) full).queue.length = 4 := by
  decide
/-- MOVE SPACE 2 closes a new composite READY with zero layers (R12, R15). -/
theorem test_move_space :
    ((after (.moveSpace 2) (idle .held)).queue.map fun c => (c.state, c.action)) = [(.ready, some (.space 2))] := by decide
/-- MOVE SKIP in a PRINT body ends the record short first, so the composite closes with its layer (R14, R106). -/
theorem test_move_skip_after_short :
    ((after (.moveSkip 5) (taking (.printSpace 0))).queue.map fun c => (c.state, c.layers.length, c.flags.short)) =
        [(.closed, 2, true)] ∧
      (after (.moveSkip 5) (taking (.printSpace 0))).warnings = [.shortRecord] := by decide
/-- LOAD FORM waits for a motion (R112). -/
theorem test_load_form_waits : (after .loadForm (slewing 10 .stopped)).parser.state = .awaitDrain := by decide
/-- LOAD CODES waits for nothing (R109). -/
theorem test_load_codes_enters : (after .loadCodes (slewing 10 .stopped)).parser.state = .body := by decide
/-- LOAD GLYPH's remaining count is 10 from the start of its body (R102). -/
theorem test_load_glyph_counts : (after .loadGlyph (idle .online)).parser.remaining = some 10 := by decide
/-- CHECK BLANK keeps the mode BLANK (R87). -/
theorem test_check_blank : (after .checkBlank (idle .online)).parser.checkMode = .blank := by decide
/-- CHECK BLOCK sets BLOCK (R87). -/
theorem test_check_block : (after .checkBlock (idle .online)).parser.checkMode = .block := by decide
/-- An unknown order raises ORDER ERROR (R117); in a load's body it follows the two warnings of the short load (R116). -/
theorem test_unknown_order :
    (after (.unknownOrder 0x20) (idle .online)).warnings = [.orderError] ∧
      (after (.unknownOrder 0xFF) (taking .loadCodes)).warnings = [.shortRecord, .loadRejected, .orderError] := by decide
/-- A count byte of 3 gives three bytes to come (R102, R103). -/
theorem test_data_byte_count : (after (.dataByte 3) (taking (.printSpace 1))).parser.remaining = some 3 := by decide
/-- A count byte of 0 ends the record: its blank layer is appended and the line closes (R102, R103). -/
theorem test_data_byte_empty_record :
    ((after (.dataByte 0) (taking (.printSpace 1))).queue.map fun c => (c.state, c.layers.length, c.action)) =
      [(.closed, 2, some (.space 1))] := by decide

/-! ## Control orders -/

/-- HOLD during a stepped motion pends (R132). -/
theorem test_hold_pends :
    (after .hold (slewing 10 .stopped)).stops.hold = true ∧ (after .hold (slewing 10 .stopped)).mode = .online := by decide
/-- HOLD at s = 0 withdraws the motion: the composite is READY with its buffer, the station HELD (R59). -/
theorem test_hold_withdraws :
    ((after .hold (printing 0 .none .stopped)).queue.map fun c => (c.state, c.buffer)) = [(.ready, some .a)] ∧
      (after .hold (printing 0 .none .stopped)).mode = .held := by decide
/-- DISCARD in a stepped motion keeps sequence 127 without its buffer, its firing OFF (R19, R62). -/
theorem test_discard_keeps :
    ((after .discard (printing 3 (.due 0) .stopped)).queue.map fun c => (c.seq, c.buffer)) = [(127, none)] ∧
      ((after .discard (printing 3 (.due 0) .stopped)).motion.map fun m => (m.firing, m.row)) = some (false, .none) := by
  decide
/-- DISCARD in FORMING removes BAR BROKEN and keeps FRAME SKEW (R127, R133). -/
theorem test_discard_forming :
    (after .discard { idle .forming with faults := [.frameSkew, .barBroken], faultLow := true }).faults = [.frameSkew] := by
  decide
/-- RESUME makes a HELD station ONLINE and leaves a STOPPED one (R134, R128). -/
theorem test_resume :
    (after .resume (idle .held)).mode = .online ∧ (after .resume (idle .stopped)).mode = .stopped := by decide
/-- A SENSE of station 3, STOPPED with nothing else: 0x0B, OPERATOR STOP, mode 2, an empty queue (R162, R164). -/
theorem test_sense :
    ((after .sense (idle .stopped)).senseRead.map fun r =>
      (r.snapshot.arbitration, r.snapshot.condition, r.snapshot.status, r.snapshot.oldest)) =
        some (0x0B, 0x14, 0x02, 0xFF) := by decide

/-! ## Reads -/

/-- R165's example: 17 and 18 settle to 17, and the station that offers 18 releases its bit 0 and no other (R165, R169). -/
theorem test_arbitration_example :
    arbitrate 18 { lowest := 17 } = 17 ∧ arbitrate 17 { lowest := 18 } = 17 ∧ withdrawn 18 { lowest := 17 } = 0b10011 := by decide
/-- A station whose value is the lowest wins, and loses to a lower one (R165), or where a station outside the sense read holds a line
of its value low (R168). The station of `reading` offers 27. -/
theorem test_arbitration_read :
    ((after (.arbitrationRead {}) (reading 0 false)).senseRead.map fun r => (r.index, r.winner)) = some (1, true) ∧
      ((after (.arbitrationRead { lowest := 0 }) (reading 0 false)).senseRead.map fun r => (r.index, r.winner)) = some (1, false) ∧
      ((after (.arbitrationRead { held := 0x37 }) (reading 0 false)).senseRead.map fun r => (r.index, r.winner)) = some (1, false) := by
  decide
/-- The winner's read of byte 7 consumes ORDER ERROR; a loser's does not (R167). -/
theorem test_sense_record_read :
    (after .senseRecordRead (reading 7 true)).warnings = [] ∧ (after .senseRecordRead (reading 7 false)).warnings = [.orderError] := by
  decide
/-- An ONLINE station at rest with nothing to report reads 0xFF; a STOPPED one drives bits 6 and 3 low (R160). -/
theorem test_pstr_fall :
    (after (.pstrFall (.read {})) (idle .online)).pd = 0xFF ∧ (after (.pstrFall (.read {})) (idle .stopped)).pd = 0xB7 := by
  decide
/-- The status byte is held through a step and a rise of JOIN that fall within its strobe, until the strobe's rise (R160, R169). -/
theorem test_status_byte_held :
    (after .joinRise (after .step statusDriven)).pd = 0xB7 ∧ (after .senseRecordRead (after .step statusDriven)).pd = 0xFF := by
  decide
/-- During a write strobe a station with a waiting byte holds PRDY low (R157). -/
theorem test_pstr_fall_write :
    (after (.pstrFall .write)
      { full with
        parser := { state := .awaitPlace, order := some (.printSpace 0) }
        inputBuffer := [{ value := 1, order := false }] }).holdsPrdy = true := by decide

/-! ## Resets and formation -/

/-- While PINIT is low the station answers nothing and holds PRDY low (R154, R157). -/
theorem test_pinit_fall :
    (after .pinitFall (idle .online)).answers = false ∧ (after .pinitFall (idle .online)).holdsPrdy = true := by decide
/-- A PINIT of 10 us makes a HELD station ONLINE; one of 9 us is disregarded (R139, R159). -/
theorem test_pinit :
    (after (.pinit 10) { idle .held with pinitLowSince := some 0 }).mode = .online ∧
      (after (.pinit 9) { idle .held with pinitLowSince := some 0 }).mode = .held := by decide
/-- Full reset holds STATION STARTED alone (R161) and the queue empty (R23). -/
theorem test_full_reset : (after .fullReset full).warnings = [.stationStarted] ∧ (after .fullReset full).queue = [] := by
  decide
/-- R123's table: FCOL 180 with code 31 gives W 13, FCOL 200 with code 5 gives column 192 and W 1. -/
theorem test_reset_release :
    (after (.resetRelease { stn := 5, fcol := 180, wid := 31, rate := 0, fire := 0 }) State.reset).straps.effective = 13 ∧
      (after (.resetRelease { stn := 5, fcol := 200, wid := 5, rate := 0, fire := 0 }) State.reset).straps.fcol = 192 := by
  decide
/-- The start interval ends at 10 ms after the release, and FORMING begins (R125). -/
theorem test_start_interval :
    (after .startIntervalExpiry { idle .starting with startInterval := some 0 }).mode = .forming ∧
      (after .startIntervalExpiry { idle .starting with startInterval := some 0 }).clock = 10000 := by decide
/-- A rise of JOIN in FORMING starts the interval; its expiry with the cover open stops the bar (R126, R145). -/
theorem test_join_rise : (after .joinRise (idle .forming)).formingInterval = some 0 := by decide
theorem test_forming_interval :
    (after .formingIntervalExpiry
        { idle .forming with formingInterval := some 0, inputs := { coverClosed := false, paperPresent := false } }).faults =
      [.coverOpen, .paperOut] ∧
      (after .formingIntervalExpiry { idle .forming with formingInterval := some 0 }).mode = .stopped := by decide
/-- A fall of JOIN in a stepped motion: FRAME SKEW, then BAR BROKEN, and FORMING (R138). -/
theorem test_join_fall :
    (after .joinFall (printing 3 (.due 0) .stopped)).faults = [.frameSkew, .barBroken] ∧
      (after .joinFall (printing 3 (.due 0) .stopped)).mode = .forming := by decide

/-! ## Panel and FAULT -/

/-- An opened cover ends a running pulse; its row is due again (R53, R145). -/
theorem test_cover_open :
    (after .coverOpen (printing 3 (.firing 0) .stopped)).fireOn = false ∧
      ((after .coverOpen (printing 3 (.firing 0) .stopped)).motion.map fun m => m.row) = some (.due 0) := by decide
/-- A cover already accepted open is no change (R140). -/
theorem test_cover_open_again :
    (after .coverOpen { idle .online with inputs := { coverClosed := false } }).faults = [] := by decide
/-- A closed cover leaves COVER OPEN in the set (R146). -/
theorem test_cover_closed :
    (after .coverClosed { idle .online with faults := [.coverOpen], faultLow := true, inputs := { coverClosed := false } }).faults =
      [.coverOpen] := by decide
/-- Paper out at a boundary records PAPER OUT; in a stepped motion it pends (R147). -/
theorem test_paper_absent :
    (after .paperAbsent (idle .online)).faults = [.paperOut] ∧ (after .paperAbsent (slewing 10 .stopped)).faults = [] := by
  decide
/-- The paper's return removes no fault (R148). -/
theorem test_paper_present :
    (after .paperPresent { idle .online with faults := [.paperOut], faultLow := true, inputs := { paperPresent := false } }).faults =
      [.paperOut] := by decide
/-- An order byte of 0x01 is HOLD by whatever row it comes (R158, R170). -/
theorem test_order_byte_of_hold : (after (.unknownOrder 0x01) (idle .online)).mode = .held := by decide
/-- KSTART makes a STOPPED station ONLINE and leaves a HELD one (R135). -/
theorem test_kstart : (after .kstart (idle .stopped)).mode = .online ∧ (after .kstart (idle .held)).mode = .held := by decide
/-- KSTOP stops a HELD station and an ONLINE one at a boundary (R136). -/
theorem test_kstop : (after .kstop (idle .held)).mode = .stopped ∧ (after .kstop (idle .online)).mode = .stopped := by decide
/-- A FEED from line 0 of the default form moves 66 lines of 12 rows, with firing OFF (R33, R35, R61). -/
theorem test_kfeed :
    ((after .kfeed (idle .stopped)).motion.map fun m => (m.feed, m.distance, m.firing)) = some (true, 792, false) := by
  decide +kernel
/-- KTOF while faulted removes the line in motion and FRAME SKEW (R22, R152); in ONLINE unfaulted it is disregarded. -/
theorem test_ktof :
    (after .ktof { slewing 12 .expired with faults := [.frameSkew], faultLow := true, line := 5 }).queue = [] ∧
      (after .ktof { idle .online with line := 5 }).line = 5 := by decide
/-- A fall of FAULT cuts a bystander off (R143, R144). -/
theorem test_fault_fall :
    (after .faultFall (printing 3 (.firing 0) .stopped)).bystander = true ∧
      (after .faultFall (printing 3 (.firing 0) .stopped)).holdsStep = true := by decide
/-- A rise of FAULT with FRAME high concludes a waiting motion; with FRAME low its timer starts again (R56, R57). -/
theorem test_fault_rise :
    (after (.faultRise true) { slewing 12 (.still 7) with faultLow := true }).line = 1 ∧
      ((after (.faultRise false) { slewing 12 (.still 7) with faultLow := true, clock := 5 }).motion.map fun m => m.timer) =
        some (.running 5) := by decide +kernel

/-! ## Motion and rendering -/

/-- The first step brings row 0 due; the twelfth of twelve starts the frame timer (R49, R55). -/
theorem test_step :
    ((after .step (printing 0 .none .stopped)).motion.map fun m => (m.steps, m.row)) = some (1, .due 0) ∧
      ((after .step (slewing 11 .stopped)).motion.map fun m => (m.steps, m.timer)) = some (12, .running 0) := by decide
/-- A step taken as the station becomes faulted counts, and its row stays DUE (R49). -/
theorem test_step_faulted :
    ((after .step (withFault .coverOpen (printing 2 .none .stopped))).motion.map fun m => (m.steps, m.row)) =
      some (3, .due 0) := by decide
/-- A step at a boundary records FRAME SKEW (R50). -/
theorem test_step_unplanned : (after .step (idle .online)).faults = [.frameSkew] := by decide
/-- The frame event applies the landing and lets the composite leave (R39, R18). -/
theorem test_frame_event :
    (after .frameEvent (slewing 12 (.running 0))).line = 1 ∧ (after .frameEvent (slewing 12 (.running 0))).queue = [] := by
  decide +kernel
/-- STEP is pulled low 50 us after the step (R47). -/
theorem test_step_pulse_end :
    (after .stepPulseEnd { slewing 10 .stopped with stepDrive := .pulse, stepRecord := some { time := 0, pulse := false } }).holdsStep =
        true ∧
      (after .stepPulseEnd { slewing 10 .stopped with stepDrive := .pulse, stepRecord := some { time := 0, pulse := false } }).clock =
        50 := by decide
/-- STEP is released 2.5 ms after a fired row and 0.5 ms after none (R48). -/
theorem test_step_release :
    (after .stepRelease { slewing 9 .stopped with stepRecord := some { time := 0, pulse := true } }).clock = 2500 ∧
      (after .stepRelease { slewing 10 .stopped with stepRecord := some { time := 0, pulse := false } }).clock = 500 := by
  decide
/-- The pulse begins 100 us after the step and is noted in the step record (R51). -/
theorem test_fire_pulse_start :
    ((after .firePulseStart { printing 3 (.due 0) .stopped with stepRecord := some { time := 0, pulse := false } }).motion.map
        fun m => m.row) = some (.firing 100) ∧
      ((after .firePulseStart { printing 3 (.due 0) .stopped with stepRecord := some { time := 0, pulse := false } }).stepRecord.map
        fun r => r.pulse) = some true := by decide
/-- The end of row 8's pulse frees the buffer; the end of row 2's does not (R75). -/
theorem test_fire_pulse_end :
    (after .firePulseEnd (printing 9 (.firing 0) .stopped)).bufA.holder = none ∧
      (after .firePulseEnd (printing 3 (.firing 0) .stopped)).bufA.holder = some 9 := by decide
/-- FRAME is held low 50 us after the frame event at which the motion started (R54). -/
theorem test_frame_hold_delay :
    State.holdsFrame { printing 0 .none .stopped with frameDelay := some 0 } = false ∧
      (after .frameHoldDelay { printing 0 .none .stopped with frameDelay := some 0 }).holdsFrame = true := by decide
/-- The frame timer's expiry records FRAME SKEW (R57). -/
theorem test_frame_timer :
    (after .frameTimerExpiry (slewing 12 (.running 0))).faults = [.frameSkew] ∧
      (after .frameTimerExpiry (slewing 12 (.running 0))).clock = 100000 := by decide
/-- A BLOCKED head records DATA CHECK and stays READY (R45). -/
theorem test_motion_start_blocked :
    (after .motionStart
      { idle .online with
        queue := [{ comp 9 .ready 1 (some (.space 1)) (some .a) with flags := { blocked := true } }] }).faults = [.dataCheck] := by
  decide
/-- The first composite to close with a layer is rendered into A, 40 us a layer (R68, R69, R81). -/
theorem test_render_start :
    ((after .renderStart { idle .held with queue := [comp 0 .closed 2 (some (.space 1)) none] }).render.map fun r =>
      (r.buffer, r.duration)) = some (.a, 80) := by decide
/-- A READY composite after 40 us, its image of a solid glyph with every dot of the cell on (R71, R72, R84). -/
theorem test_render_completion :
    let s : State :=
      { idle .held with
        queue := [{ seq := 0, state := .rendering, layers := [[.glyph 95]], action := some (.space 1), buffer := some .a }]
        bufA := { holder := some 0 }
        render := some { seq := 0, buffer := .a, duration := 40, start := 0 } }
    ((after .renderCompletion s).queue.map fun c => c.state) = [.ready] ∧
      ((after .renderCompletion s).bufA.image.getD 8 []).take 9 = List.replicate 8 true ++ [false] := by decide +kernel
/-- A departure's place goes to the waiting MOVE (R8, R115). -/
theorem test_place_grant :
    ((after .placeGrant
      { full with
        queue := full.queue.tail
        parser := { state := .awaitPlace, order := some (.moveSpace 1) } }).queue.map fun c => c.seq) = [1, 2, 3, 4] := by decide
/-- A drain that ends takes the waiting byte as the glyph index (R112). -/
theorem test_drain_end :
    (after .drainEnd
      { idle .held with
        parser := { state := .awaitDrain, order := some .loadGlyph }
        inputBuffer := [{ value := 0x60, order := false }] }).parser.glyphStage.index = some 96 := by decide

/-! ## Witnesses: for each statement that has hypotheses, states and operands that meet them, clause by clause -/

/-- A waiting parser behind a full queue with a full input buffer. -/
def overfull : State :=
  { full with
    parser := { state := .awaitPlace, order := some (.printSpace 0) }
    inputBuffer := [{ value := 1, order := false }, { value := 0x41, order := false }] }

/-- An idle parser with an OPEN composite of `n` layers queued. -/
def openLine (n : Nat) : State := { idle .online with queue := [comp 0 .opened n none none], counter := 1 }

theorem witness_StepRunsTheFrontCommand :
    ({ idle .online with pending := [.hold, .resume] } : State).pending = .hold :: [.resume] ∧
      ((idle .online).pending = [] ∧ (idle .online).quiet = true ∧ (idle .online).strobe = .none) ∧
      (statusDriven.pending = [] ∧ statusDriven.quiet = true ∧ statusDriven.senseRead = none ∧
        statusDriven.strobe = .read true) ∧
      (reading 1 true).pending = [] ∧ (reading 1 true).senseRead ≠ none := by decide

theorem witness_EventsFollowTheStepsDue :
    Instr.frameEvent ≠ .placeGrant ∧ Instr.frameEvent ≠ .drainEnd ∧ Instr.frameEvent ≠ .renderStart ∧
      Instr.frameEvent ≠ .motionStart := by decide

theorem witness_StepsKeepSoundness :
    (printing 3 (.due 0) .stopped).sound = true ∧ (slewing 12 (.running 0)).sound = true ∧ (feeding .stopped 0).sound = true ∧
      overfull.sound = true ∧ State.reset.sound = true ∧
      step { slewing 12 (.running 0) with pending := [.frameEvent] } = .next (after .frameEvent (slewing 12 (.running 0))) := by
  exact ⟨by decide +kernel, by decide +kernel, by decide +kernel, by decide +kernel, by decide +kernel, rfl⟩

theorem witness_NoKindIsHeldTwice :
    (withFault .coverOpen (reading 0 false)).faults.Nodup ∧ (withFault .coverOpen (reading 0 false)).warnings.Nodup ∧
      step (withFault .coverOpen (reading 0 false)) = .next (withFault .coverOpen (reading 0 false)).tick :=
  ⟨by decide, by decide, rfl⟩

theorem witness_OwnFaultHoldsFaultLow :
    (idle .online).faults = [] ∧ (withFault .paperOut (idle .online)).faultLow = true ∧
      step (idle .online) = .next (idle .online).tick := ⟨rfl, rfl, rfl⟩

theorem witness_StoresKeepTheirSizes :
    State.reset.codeTable.length = 256 ∧ State.reset.loadable.length = 32 ∧ State.reset.bufA.image.length = 9 ∧
      State.reset.bufB.image.length = 9 ∧ step State.reset = .next State.reset.tick ∧
      overfull.inputBuffer.length ≤ 2 ∧ step overfull = .next overfull.tick :=
  ⟨by decide +kernel, by decide, by decide, by decide, rfl, by decide, rfl⟩

theorem witness_StrapsStayAsSampled :
    Instr.joinFall ≠ .fullReset ∧ (∀ pins, Instr.joinFall ≠ .resetRelease pins) ∧
      exec .joinFall (idle .online) = .next (after .joinFall (idle .online)) := by
  refine ⟨by decide, fun _ => nofun, rfl⟩

theorem witness_PrintOrderTakesItsPlace :
    ((∃ k, k ≤ 3 ∧ Instr.printSpace 3 = .printSpace k ∧ RecordOrder.printSpace 3 = .printSpace k) ∧
      ∃ c, 1 ≤ c ∧ c ≤ 12 ∧ Instr.printSkip 12 = .printSkip c ∧ RecordOrder.printSkip 12 = .printSkip c) ∧
      ((openLine 1).takesOrders = true ∧ (openLine 1).hasOpen = true) ∧
      ((idle .online).takesOrders = true ∧ (idle .online).hasOpen = false ∧ (idle .online).queue.length < 4) ∧
      (full.takesOrders = true ∧ full.hasOpen = false ∧ 4 ≤ full.queue.length) :=
  ⟨⟨⟨3, by decide⟩, ⟨12, by decide⟩⟩, by decide, by decide, by decide⟩

theorem witness_MoveOrderClosesTheLine :
    ((∃ k, 1 ≤ k ∧ k ≤ 3 ∧ Instr.moveSpace 1 = .moveSpace k ∧ RecordOrder.moveSpace 1 = .moveSpace k ∧ Action.space 1 = .space k) ∧
      ∃ c, 1 ≤ c ∧ c ≤ 12 ∧ Instr.moveSkip 12 = .moveSkip c ∧ RecordOrder.moveSkip 12 = .moveSkip c ∧ Action.skip 12 = .skip c) ∧
      ((openLine 1).takesOrders = true ∧ (openLine 1).queue = [] ++ [comp 0 .opened 1 none none] ∧
        (comp 0 .opened 1 none none).state = .opened) ∧
      ((idle .held).takesOrders = true ∧ (idle .held).hasOpen = false ∧ (idle .held).queue.length < 4) ∧
      (full.takesOrders = true ∧ full.hasOpen = false ∧ 4 ≤ full.queue.length) :=
  ⟨⟨⟨1, by decide⟩, ⟨12, by decide⟩⟩, by decide, by decide, by decide⟩

theorem witness_LoadOrdersJudgeTheDrain :
    ((idle .online).takesOrders = true ∧ (idle .online).queue = [] ∧ (idle .online).motion = none) ∧
      ((openLine 1).takesOrders = true ∧ (openLine 1).queue = [comp 0 .opened 1 none none] ∧ (openLine 1).motion = none) ∧
      (full.takesOrders = true ∧ full.queue ≠ [] ∧ full.queue.length ≠ 1) ∧
      (slewing 10 .stopped).takesOrders = true ∧ (slewing 10 .stopped).motion ≠ none := by decide

theorem witness_CheckOrdersSetTheMode : (idle .held).takesOrders = true ∧ (slewing 10 .stopped).takesOrders = true := by decide

theorem witness_OrderByteEndsTheRecordShort :
    ((∀ i ∈ [Instr.printSpace 3, .printSkip 12, .moveSpace 1, .moveSkip 12, .loadForm, .loadCodes, .loadGlyph, .checkBlank, .checkBlock],
        i.wf = true ∧ (recordOrderOf i).isSome = true) ∧
      (∀ v ∈ [(0x00 : Byte), 0x40, 0xFF], (Instr.unknownOrder v).wf = true)) ∧
      (idle .online).takesOrders = true ∧
      ((taking .loadForm).takesBody .loadForm = true ∧ (taking .loadCodes).takesBody .loadCodes = true ∧
        (taking .loadGlyph).takesBody .loadGlyph = true) ∧
      (let s : State := { slewing 10 .stopped with parser := { state := .awaitDrain, order := some .loadForm } }
       s.quiet = true ∧ s.answers = true ∧ s.mode.working = true ∧ s.inputBuffer = [] ∧ s.parser.state = .awaitDrain ∧
         s.parser.order = some .loadForm) ∧
      (∀ o ∈ [RecordOrder.printSpace 0, .printSpace 1, .printSkip 12],
        isPrint o = true ∧ (taking o).takesBody o = true ∧ (taking o).parser.layer = some (.fresh 8) ∧
          (taking o).queue = [] ++ [comp 0 .opened 1 none none]) ∧
      (let s : State := { taking (.printSkip 1) with queue := [comp 0 .opened 4 none none] }
       s.takesBody (.printSkip 1) = true ∧ s.parser.layer = some (.fresh 8) ∧ s.queue = [] ++ [comp 0 .opened 4 none none] ∧
         (comp 0 .opened 4 none none).state = .opened) := by
  decide

theorem witness_StrayByteIsIgnored :
    (idle .online).takesOrders = true ∧ full.takesOrders = true ∧ full.parser.state = .idle := by decide

/-- A PRINT body at column `k` with two bytes to come. -/
def atColumn (k : Nat) : State :=
  { taking (.printSpace 1) with
    straps := { station := 3, fcol := 5, width := 8, rate := 0, fire := 0 }
    parser := { (taking (.printSpace 1)).parser with column := k, remaining := some 2 } }

theorem witness_PrintByteFallsInItsColumn :
    (isPrint (.printSpace 1) = true ∧
        (∀ k ∈ [4, 5, 12, 13, 192, 193],
          (atColumn k).takesBody (.printSpace 1) = true ∧ (atColumn k).parser.layer = some (.fresh 8) ∧
            (atColumn k).parser.remaining = some (0 + 2) ∧ (atColumn k).parser.column = k) ∧
        (atColumn 5).straps.fcol ≤ 192 ∧ 1 ≤ (atColumn 5).straps.width) ∧
      ((atColumn 5).straps.fcol ≤ 5 ∧ 5 ≤ (atColumn 5).straps.fcol + min 8 (193 - 5) - 1) ∧
      ((atColumn 12).straps.fcol ≤ 12 ∧ 12 ≤ (atColumn 12).straps.fcol + min 8 (193 - 5) - 1) ∧
      4 < (atColumn 4).straps.fcol ∧ (atColumn 13).straps.fcol + min 8 (193 - 5) - 1 < 13 := by decide

theorem witness_PrintRecordBuildsItsLayer :
    ((∃ k, k ≤ 3 ∧ Instr.printSpace 0 = .printSpace k ∧ RecordOrder.printSpace 0 = .printSpace k) ∧
      (∃ k, k ≤ 3 ∧ Instr.printSpace 3 = .printSpace k ∧ RecordOrder.printSpace 3 = .printSpace k) ∧
      ∃ c, 1 ≤ c ∧ c ≤ 12 ∧ Instr.printSkip 12 = .printSkip c ∧ RecordOrder.printSkip 12 = .printSkip c) ∧
      ((openLine 3).takesOrders = true ∧ (openLine 3).pending = [] ∧ (openLine 3).queue = [] ++ [comp 0 .opened 3 none none] ∧
        (comp 0 .opened 3 none none).state = .opened ∧ (comp 0 .opened 3 none none).layers.length < 4) ∧
      ((idle .held).takesOrders = true ∧ (idle .held).pending = [] ∧ (idle .held).queue = [] ∧ (idle .held).hasOpen = false ∧
        ([] : List Composite).length < 4) ∧
      (([] : List Byte).length ≤ 255 ∧ (List.replicate 255 (0x41 : Byte)).length ≤ 255) ∧ 1 ≤ (openLine 3).straps.fcol ∧
      (openLine 3).straps.fcol ≤ 192 ∧ 1 ≤ (openLine 3).straps.width := by
  refine ⟨⟨⟨0, by decide⟩, ⟨3, by decide⟩, ⟨12, by decide⟩⟩, ⟨by decide, rfl, rfl, rfl, by decide⟩, by decide,
    ⟨by decide, by decide +kernel⟩, by decide, by decide, by decide⟩

theorem witness_FifthLayerIsDropped :
    let s : State := { taking (.printSkip 1) with queue := [comp 0 .opened 4 none none] }
    isPrint (.printSkip 1) = true ∧ s.takesBody (.printSkip 1) = true ∧ s.parser.layer = some (.fresh 8) ∧
      s.parser.remaining = none ∧ s.queue = [] ++ [comp 0 .opened 4 none none] ∧ (comp 0 .opened 4 none none).state = .opened ∧
      4 ≤ (comp 0 .opened 4 none none).layers.length := by decide

theorem witness_FormLoadInstallsOrIsRejected :
    (openLine 1).takesOrders = true ∧ (openLine 1).pending = [] ∧ (openLine 1).drained = true ∧
      ([] : List (Byte × Byte)).length ≤ 255 ∧ (List.replicate 144 ((0x01, 0x08) : Byte × Byte)).length ≤ 255 ∧
      (List.replicate 255 ((0x01, 0x08) : Byte × Byte)).length ≤ 255 := by
  refine ⟨by decide, rfl, by decide, by decide, by decide +kernel, by decide +kernel⟩

theorem witness_CodeLoadReplacesItsRun :
    (slewing 10 .stopped).takesOrders = true ∧ (slewing 10 .stopped).pending = [] ∧ 1 ≤ [(0x21 : Byte)].length ∧
      [(0x21 : Byte)].length ≤ 256 ∧ 1 ≤ (List.replicate 256 (0xFE : Byte)).length ∧
      (List.replicate 256 (0xFE : Byte)).length ≤ 256 := by
  refine ⟨by decide, rfl, by decide, by decide, by decide +kernel, by decide +kernel⟩

theorem witness_GlyphLoadInstallsOrIsRejected :
    (idle .stopped).takesOrders = true ∧ (idle .stopped).pending = [] ∧ (idle .stopped).drained = true ∧
      (List.replicate 9 (0x81 : Byte)).length = 9 := by decide

theorem witness_RecordByteIsTakenWaitsOrIsLost :
    let data : PortByte := { value := 0x41, order := false }
    let waits (w : ParserState) (o : RecordOrder) (bs : List PortByte) : State :=
      { full with parser := { state := w, order := some o }, inputBuffer := bs }
    ((Instr.dataByte 0x41).wf = true ∧ portByteOf (.dataByte 0x41) = some data ∧ (Instr.printSkip 12).wf = true ∧
        portByteOf (.printSkip 12) = some { value := 0x2C, order := true } ∧ (Instr.unknownOrder 0xFF).wf = true ∧
        portByteOf (.unknownOrder 0xFF) = some { value := 0xFF, order := true }) ∧
      (∀ s ∈ [idle .online, waits .awaitPlace (.printSpace 0) [], waits .awaitPlace (.printSpace 0) [data],
          waits .awaitDrain .loadForm [], waits .awaitDrain .loadForm [data], overfull],
        s.quiet = true ∧ s.answers = true ∧ s.mode.working = true) ∧
      (idle .online).inputBuffer = [] ∧ (idle .online).parser.takes data = true ∧
      (waits .awaitPlace (.printSpace 0) [data]).inputBuffer.length < 2 ∧ overfull.inputBuffer.length = 2 ∧
      ((idle .forming).quiet = true ∧ (idle .forming).answers = true ∧ (idle .forming).mode = .forming) ∧
      (idle .starting).quiet = true ∧ (idle .starting).answers = false := by
  decide

theorem witness_PlaceGrantServesTheWaitingOrder :
    let data : PortByte := { value := 2, order := false }
    let s (o : RecordOrder) (bs : List PortByte) : State :=
      { full with queue := full.queue.tail, parser := { state := .awaitPlace, order := some o }, inputBuffer := bs }
    (∀ o ∈ [RecordOrder.printSpace 0, .printSkip 12, .moveSpace 1, .moveSkip 12], ∀ bs ∈ [[], [data], [data, data]],
      (s o bs).parser.state = .awaitPlace ∧ (s o bs).parser.order = some o ∧ (s o bs).hasOpen = false ∧
        (s o bs).queue.length < 4 ∧ (s o bs).inputBuffer = bs) ∧
      isPrint (.printSkip 12) = true ∧ (255 : Byte) ≠ 0 := by decide

theorem witness_DrainEndEntersTheBody :
    let data : PortByte := { value := 96, order := false }
    let s (o : RecordOrder) (bs : List PortByte) : State :=
      { openLine 1 with parser := { state := .awaitDrain, order := some o }, inputBuffer := bs }
    ∀ o ∈ [RecordOrder.loadForm, .loadGlyph], ∀ bs ∈ [[], [data], [data, data]],
      (s o bs).parser.state = .awaitDrain ∧ (s o bs).drained = true ∧ (s o bs).parser.order = some o ∧
        (s o bs).inputBuffer = bs := by decide

/-- Stations that take no strobe: in full reset, in STARTING, and with PINIT low (R154). -/
def turnedAway : List State := [State.reset, idle .starting, { idle .online with pinitLowSince := some 0 }]

theorem witness_HoldStopsAtTheBoundary :
    (∀ s ∈ [idle .online, printing 0 .none .stopped, feeding .online 0, printing 1 (.due 0) .stopped, idle .stopped, idle .held,
        idle .forming], s.quiet = true ∧ s.answers = true) ∧
      ((idle .online).mode = .online ∧ (idle .online).stops = {} ∧ (idle .online).motion = none) ∧
      ((printing 0 .none .stopped).mode = .online ∧ (printing 0 .none .stopped).stops = {} ∧
        ((printing 0 .none .stopped).motion.map fun m => (m.steps, m.feed)) = some (0, false) ∧
        (printing 0 .none .stopped).queue = comp 9 .printing 1 (some (.space 1)) (some .a) :: []) ∧
      ((feeding .online 0).stops = {} ∧ ((feeding .online 0).motion.map fun m => (m.steps, m.feed)) = some (0, true)) ∧
      (((printing 1 (.due 0) .stopped).motion.map fun m => m.steps) = some 1) ∧ (idle .stopped).mode ≠ .online ∧
      ∀ s ∈ turnedAway, s.quiet = true ∧ s.answers = false := by decide

theorem witness_DiscardRemovesTheLines :
    (∀ s ∈ [full, printing 0 .none .stopped, printing 1 (.due 0) .stopped, feeding .stopped 1, feeding .online 1, idle .forming],
        s.quiet = true ∧ s.answers = true) ∧
      ((feeding .online 1).mode = .online ∧ ((feeding .online 1).motion.map fun m => (m.steps, m.feed)) = some (1, true)) ∧
      (full.mode.working = true ∧ full.stops = {} ∧ full.motion = none) ∧
      ((printing 0 .none .stopped).stops = {} ∧ ((printing 0 .none .stopped).motion.map fun m => m.steps) = some 0) ∧
      ((printing 1 (.due 0) .stopped).mode = .online ∧
        ((printing 1 (.due 0) .stopped).motion.map fun m => (m.steps, m.feed)) = some (1, false) ∧
        (printing 1 (.due 0) .stopped).queue = comp 9 .printing 1 (some (.space 1)) (some .a) :: []) ∧
      ((feeding .stopped 1).mode = .stopped ∧ ((feeding .stopped 1).motion.map fun m => (m.steps, m.feed)) = some (1, true)) ∧
      ((idle .forming).mode = .forming ∧ (idle .forming).queue = []) ∧
      ∀ s ∈ turnedAway, s.quiet = true ∧ s.answers = false := by decide

theorem witness_ResumeClearsAndReleases :
    ((withFault .dataCheck (idle .held)).quiet = true ∧ (withFault .dataCheck (idle .held)).answers = true ∧
        (withFault .dataCheck (idle .held)).mode.working = true) ∧
      ((idle .forming).quiet = true ∧ (idle .forming).answers = true ∧ (idle .forming).mode = .forming) ∧
      ∀ s ∈ turnedAway, s.quiet = true ∧ s.answers = false := by decide

theorem witness_PrimaryConditionIsTheMostUrgent :
    ([FaultKind.coverOpen, .barBroken, .frameSkew] = [.coverOpen] ++ .barBroken :: [.frameSkew] ∧ FaultKind.barBroken.cls = 0 ∧
        ∀ g ∈ [FaultKind.coverOpen], g.cls ≠ 0) ∧
      ([FaultKind.paperOut, .coverOpen] = [] ++ .paperOut :: [.coverOpen] ∧
        (∀ g ∈ [FaultKind.paperOut, .coverOpen], g.cls ≠ 0) ∧ FaultKind.paperOut.cls = 1) ∧
      ((idle .stopped).faults = [] ∧ (idle .stopped).mode = .stopped) ∧
      ((reading 0 false).faults = [] ∧ (reading 0 false).mode ≠ .stopped ∧ (reading 0 false).warnings = .orderError :: []) ∧
      (idle .online).faults = [] ∧ (idle .online).mode ≠ .stopped ∧ (idle .online).warnings = [] := by decide

theorem witness_StrobeFallDrivesTheByte :
    ((4 < 5 ∧ 5 ≤ 5 ∧ (31 : Byte).toNat ≤ 31) ∧
      (∀ s ∈ [idle .online, idle .starting, reading 0 false, reading 1 false, reading 8 true], s.quiet = true) ∧
      (∀ k ∈ [0, 1, 2, 3, 4, 5, 6, 7, 8], (reading k true).quiet = true ∧ (reading k true).answers = true ∧
        ((reading k true).senseRead.map fun r => (r.index, r.winner)) = some (k, true)) ∧
      (idle .starting).answers = false ∧ (idle .online).answers = true ∧ (idle .online).senseRead = none ∧
      ((reading 1 false).answers = true ∧ ((reading 1 false).senseRead.map fun r => (r.index, r.winner)) = some (1, false)) ∧
      (statusDriven.quiet = true ∧ statusDriven.senseRead = none ∧ statusDriven.pd = 0xB7) ∧
      ∀ c ∈ [Instr.step, .joinRise, .coverOpen, .frameEvent], strobesPort c = false ∧ c ≠ .pinitFall ∧ c ≠ .fullReset) ∧
      exec .step statusDriven = .next (after .step statusDriven) := ⟨by decide, rfl⟩

theorem witness_SenseFixesTheSnapshot :
    (idle .forming).quiet = true ∧ (idle .forming).answers = true ∧ (slewing 10 .stopped).quiet = true ∧
      (slewing 10 .stopped).answers = true ∧ (slewing 10 .stopped).queue = comp 9 .printing 1 (some (.space 1)) none :: [] ∧
      (idle .forming).queue = [] ∧ ∀ s ∈ turnedAway, s.quiet = true ∧ s.answers = false := by decide

/-- A sense read at index `i` whose read strobe is not answered: PINIT is low, or was at the strobe's fall (R154, R166). -/
def unanswered (i : Nat) : List State :=
  [{ reading i true with pinitLowSince := some 0 }, { reading i true with strobe := .read false }]

theorem witness_LowestValueWins :
    ((0 : Byte).toNat ≤ 31 ∧ (31 : Byte).toNat ≤ 31 ∧ (0xFF : Byte) = 0xFF) ∧
      (reading 0 false).quiet = true ∧ (reading 0 false).answers = true ∧ (reading 0 false).strobe ≠ .read false ∧
      ((reading 0 false).senseRead.map fun r => (r.index, decide (r.snapshot.arbitration.toNat ≤ 31))) = some (0, true) ∧
      (({ lowest := 31, held := 0x37 } : Peers).lowest.toNat ≤ 31 ∧ ({} : Peers).lowest = 0xFF) ∧
      ∀ s ∈ unanswered 0, s.quiet = true ∧ (s.answers = false ∨ s.strobe = .read false) := by decide

theorem witness_ReadOfByteSevenConsumes :
    (∀ s ∈ [reading 1 true, reading 6 false, reading 7 true, reading 8 true],
        s.quiet = true ∧ s.answers = true ∧ s.strobe ≠ .read false) ∧
      ((reading 1 true).senseRead.map fun r => r.index) = some 1 ∧ ((reading 6 false).senseRead.map fun r => r.index) = some 6 ∧
      ((reading 7 true).senseRead.map fun r => r.index) = some 7 ∧ ((reading 8 true).senseRead.map fun r => r.index) = some 8 ∧
      ∀ s ∈ unanswered 7, s.quiet = true ∧ (s.answers = false ∨ s.strobe = .read false) := by decide

theorem witness_PinitClosesAndResetsThePort :
    ((idle .online).quiet = true ∧ (idle .online).pinitLowSince = none ∧ (idle .online).clock = 0) ∧
      ((feeding .stopped 1).mode.working = true ∧ ((feeding .stopped 1).motion.map fun m => (m.steps, m.feed)) = some (1, true)) ∧
      (∀ s ∈ [full, printing 0 .none .stopped, printing 1 (.due 0) .stopped, feeding .stopped 1, idle .forming],
        s.quiet = true ∧ ({ s with pinitLowSince := some 0 } : State).quiet = true ∧ s.rstLow = false) ∧
      9 < 10 ∧ (idle .forming).mode.working = false ∧ (State.reset.quiet = true ∧ State.reset.rstLow = true) ∧
      (full.mode.working = true ∧ full.motion = none) ∧
      ((printing 0 .none .stopped).mode.working = true ∧ ((printing 0 .none .stopped).motion.map fun m => m.steps) = some 0) ∧
      ((printing 1 (.due 0) .stopped).motion.map fun m => (m.steps, m.feed)) = some (1, false) ∧
      (printing 1 (.due 0) .stopped).queue = comp 9 .printing 1 (some (.space 1)) (some .a) :: [] := by decide

theorem witness_StrapsAreClamped :
    (0 : BitVec 8) = 0 ∧ (1 ≤ (192 : BitVec 8).toNat ∧ (192 : BitVec 8).toNat ≤ 192) ∧ 193 ≤ (193 : BitVec 8).toNat ∧
      (24 : BitVec 5).toNat ≤ 24 ∧ 25 ≤ (25 : BitVec 5).toNat := by decide

theorem witness_ReleaseEntersStarting :
    (State.reset.quiet = true ∧ State.reset.rstLow = true ∧ State.reset.pinitLowSince = none) ∧
      (({ State.reset with pinitLowSince := some 0, clock := 5 } : State).quiet = true) ∧
      (Instr.kstart ∈ [Instr.coverOpen, .coverClosed, .paperAbsent, .paperPresent, .kstart, .kstop, .kfeed, .ktof, .joinRise, .joinFall]) ∧
      (idle .online).quiet = true ∧ (idle .online).rstLow = false := by decide

theorem witness_TheBarForms :
    (({ idle .starting with startInterval := some 0 } : State).quiet = true ∧ (idle .starting).rstLow = false) ∧
      ((idle .forming).quiet = true ∧ (idle .forming).mode = .forming ∧ (idle .forming).inputs.joinHigh = false) ∧
      ((idle .stopped).quiet = true ∧ (idle .stopped).rstLow = false ∧ (idle .stopped).inputs.joinHigh = true) ∧
      (let s : State := { idle .forming with formingInterval := some 0 }
       s.quiet = true ∧ s.formingInterval = some 0 ∧ s.motion = none ∧ s.stops = {} ∧ s.stepDrive = .held) := by decide

theorem witness_JoinFallBreaksTheBar :
    ((idle .forming).quiet = true ∧ (idle .forming).inputs.joinHigh = false) ∧
      (∀ s ∈ [printing 1 (.due 0) .stopped, printing 0 .none .stopped, idle .held,
          { idle .forming with inputs := { joinHigh := true } }, { idle .starting with inputs := { joinHigh := true } }],
        s.quiet = true ∧ s.rstLow = false ∧ s.inputs.joinHigh = true) ∧
      ((printing 1 (.due 0) .stopped).mode.working = true ∧ ((printing 1 (.due 0) .stopped).motion.map fun m => m.steps) = some 1) ∧
      ((printing 0 .none .stopped).motion.map fun m => m.steps) = some 0 ∧
      ((idle .held).mode.working = true ∧ (idle .held).motion = none) ∧ (idle .forming).mode = .forming ∧
      (idle .starting).mode = .starting := by decide

theorem witness_CoverCutsTheHeadOff :
    (printing 3 (.firing 0) .stopped).quiet = true ∧ (printing 3 (.firing 0) .stopped).rstLow = false ∧
      (printing 3 (.firing 0) .stopped).mode.working = true ∧
      ((printing 3 (.firing 0) .stopped).motion.map fun m => m.row) = some (.firing 0) ∧
      (printing 3 (.firing 0) .stopped).inputs.coverClosed = true ∧
      ((idle .forming).quiet = true ∧ (idle .forming).rstLow = false ∧ (idle .forming).mode.working = false ∧
        (idle .forming).inputs.coverClosed = true) ∧
      ({ idle .online with inputs := { coverClosed := false } } : State).quiet = true := by decide

theorem witness_PaperStopsAtTheBoundary :
    (∀ s ∈ [idle .held, printing 0 .none .stopped, feeding .stopped 0, printing 1 (.due 0) .stopped],
        s.quiet = true ∧ s.rstLow = false ∧ s.mode.working = true ∧ s.stops = {} ∧ s.inputs.paperPresent = true) ∧
      ((idle .forming).quiet = true ∧ (idle .forming).mode.working = false ∧ (idle .forming).inputs.paperPresent = true) ∧
      ({ idle .online with inputs := { paperPresent := false } } : State).quiet = true ∧
      (idle .held).motion = none ∧
      (((printing 0 .none .stopped).motion.map fun m => (m.steps, m.feed)) = some (0, false) ∧
        (printing 0 .none .stopped).queue = comp 9 .printing 1 (some (.space 1)) (some .a) :: []) ∧
      ((feeding .stopped 0).motion.map fun m => (m.steps, m.feed)) = some (0, true) ∧
      ((printing 1 (.due 0) .stopped).motion.map fun m => m.steps) = some 1 := by decide

theorem witness_KeysStartAndStop :
    (∀ s ∈ [idle .stopped, idle .online, printing 1 (.due 0) .stopped, idle .held, feeding .stopped 0],
        s.quiet = true ∧ s.rstLow = false ∧ s.mode.working = true) ∧
      ((idle .online).motion = none ∧ (idle .online).stops = {}) ∧
      ((printing 1 (.due 0) .stopped).mode = .online ∧ ((printing 1 (.due 0) .stopped).motion.map fun m => m.steps) = some 1) ∧
      (idle .held).mode = .held ∧
      ((printing 0 .none .stopped).quiet = true ∧ (printing 0 .none .stopped).mode = .online ∧ (printing 0 .none .stopped).stops = {} ∧
        ((printing 0 .none .stopped).motion.map fun m => (m.feed, m.steps)) = some (false, 0) ∧
        (printing 0 .none .stopped).queue = comp 9 .printing 1 (some (.space 1)) (some .a) :: []) ∧
      ((feeding .online 0).quiet = true ∧ (feeding .online 0).stops = {} ∧
        ((feeding .online 0).motion.map fun m => (m.feed, m.steps)) = some (true, 0)) ∧
      ((feeding .stopped 1).quiet = true ∧ (feeding .stopped 1).mode = .stopped ∧
        ((feeding .stopped 1).motion.map fun m => m.steps) = some 1) ∧
      ((idle .starting).quiet = true ∧ (idle .starting).mode = .starting ∧ (idle .forming).quiet = true ∧
        (idle .forming).mode = .forming) ∧
      ((feeding .stopped 0).mode = .stopped ∧ ((feeding .stopped 0).motion.map fun m => (m.feed, m.steps)) = some (true, 0)) ∧
      (idle .stopped).mode = .stopped ∧ (idle .stopped).motion = none := by decide

theorem witness_FeedSkipsToChannelOne :
    ((idle .stopped).quiet = true ∧ (idle .stopped).rstLow = false ∧ (idle .stopped).mode = .stopped ∧
        (idle .stopped).faults = [] ∧ (idle .stopped).faultLow = false ∧ (idle .stopped).motion = none ∧
        ¬((idle .stopped).parser.state = .body ∧ (idle .stopped).parser.order = some .loadForm)) ∧
      (taking .loadForm).quiet = true ∧ (taking .loadForm).parser.state = .body ∧
      (taking .loadForm).parser.order = some .loadForm := by decide

theorem witness_TopOfFormKey :
    (∀ s ∈ [idle .starting, idle .forming, idle .stopped, withFault .coverOpen (idle .online)],
        s.quiet = true ∧ s.rstLow = false ∧ s.motion = none) ∧
      (let s := withFault .frameSkew (slewing 12 .expired)
       s.quiet = true ∧ s.rstLow = false ∧ (s.motion.map fun m => m.feed) = some false ∧
         s.queue = comp 9 .printing 1 (some (.space 1)) none :: [] ∧ s.faults ≠ []) ∧
      (let s : State := withFault .coverOpen (feeding .stopped 1)
       s.quiet = true ∧ s.rstLow = false ∧ (s.motion.map fun m => m.feed) = some true ∧ s.faults ≠ []) ∧
      ((feeding .stopped 1).quiet = true ∧ (feeding .stopped 1).mode = .stopped ∧ (feeding .stopped 1).motion ≠ none ∧
        (feeding .stopped 1).faults = [] ∧ (feeding .stopped 1).faultLow = false) ∧
      (slewing 10 .stopped).mode = .online ∧ (slewing 10 .stopped).faults = [] ∧ (slewing 10 .stopped).faultLow = false := by
  decide

theorem witness_FaultFallMakesABystander :
    (printing 3 (.firing 0) .stopped).quiet = true ∧ (printing 3 (.firing 0) .stopped).faults = [] ∧
      (withFault .coverOpen (idle .online)).quiet = true ∧ (withFault .coverOpen (idle .online)).faults ≠ [] := by decide

/-- A motion of nine steps at its end, its row 8 as given (R55). -/
def nineAtEnd (r : Row) (t : FrameTimer) : State :=
  { printing 9 r t with motion := some { feed := false, distance := 9, steps := 9, firing := true, row := r, timer := t } }

theorem witness_FaultRiseResumes :
    (∀ s ∈ [idle .online, printing 3 (.due 0) .stopped, slewing 11 .stopped, slewing 12 (.still 7), nineAtEnd (.due 0) (.still 7)],
        ({ s with faultLow := true } : State).quiet = true ∧ s.faults = []) ∧
      (idle .online).motion = none ∧
      ((printing 3 (.due 0) .stopped).motion.map fun m => (m.row, m.timer)) = some (.due 0, .stopped) ∧
      ((slewing 11 .stopped).motion.map fun m => (decide (m.steps = m.distance), m.row)) = some (false, .none) ∧
      ((nineAtEnd (.due 0) (.still 7)).motion.map fun m => (decide (m.steps = m.distance), m.row, m.timer)) =
        some (true, .due 0, .still 7) ∧
      ((slewing 12 (.still 7)).motion.map fun m => (m.row, decide (m.steps = m.distance), m.timer)) = some (.none, true, .still 7) ∧
      (slewing 12 (.still 7)).plan.isSome = true ∧
      (slewing 12 (.still 7)).queue = comp 9 .printing 1 (some (.space 1)) none :: [] ∧
      (slewing 12 (.still 7)).bufA.holder ≠ some 9 ∧ (slewing 12 (.still 7)).bufB.holder ≠ some 9 ∧
      ((feeding .stopped 792).motion.map fun m => (m.feed, m.row, decide (m.steps = m.distance))) = some (true, .none, true) := by decide

/-- Forms of one and of two lines. -/
def oneLine : FormImage := { pitch := .nine, length := 1, channels := [0] }
def twoLines : FormImage := { pitch := .twelve, length := 2, channels := [0x001, 0x800] }

theorem witness_SpacesAndDistances :
    (1 ≤ 1 ∧ 3 ≤ 3) ∧ (1 ≤ oneLine.length ∧ oneLine.length ≤ 144) ∧ oneLine.length = 1 ∧ twoLines.length = 2 := by decide

theorem witness_SkipFindsTheNextLine :
    (1 ≤ twoLines.length ∧ twoLines.length ≤ 144 ∧ 0 < twoLines.length) ∧ twoLines.skipLines 0 12 = some 1 ∧
      twoLines.skipLines 0 1 = some 2 ∧ (∀ l, l < twoLines.length → (twoLines.carries l 1 = true ↔ l = 0)) ∧
      twoLines.skipLines 1 5 = none := by decide

theorem witness_LandingAndFormCount :
    (twoLines.skipLines 0 12).isSome = true ∧ 1 ≤ twoLines.length ∧ 1 < twoLines.length ∧ 3 ≤ 3 ∧
      (slewing 10 .stopped).plan.isSome = true := by decide

theorem witness_OverflowLatchRule :
    twoLines.carries (twoLines.planFor 0 false (.skip 1)).landing 1 = true ∧
      twoLines.carries (twoLines.planFor 0 false (.space 1)).landing 1 = false := by decide

theorem witness_FreeStationStartsTheOldest :
    let s : State := { idle .online with queue := [comp 0 .ready 1 (some (.space 1)) (some .a)], bufA := { holder := some 0 } }
    s.motion = none ∧ s.faults = [] ∧ s.faultLow = false ∧ s.mode = .online ∧ s.stops = {} ∧
      s.queue = comp 0 .ready 1 (some (.space 1)) (some .a) :: [] ∧ (comp 0 .ready 1 (some (.space 1)) (some .a)).state = .ready ∧
      (comp 0 .ready 1 (some (.space 1)) (some .a)).action = some (.space 1) ∧
      (comp 0 .ready 1 (some (.space 1)) (some .a)).flags.blocked = false ∧
      ({ comp 0 .ready 1 (some (.space 1)) (some .a) with flags := { blocked := true } } : Composite).flags.blocked = true ∧
      (printing 0 .none .stopped).motion ≠ none ∧ (withFault .coverOpen s).faults ≠ [] ∧ ({ s with mode := .stopped } : State).mode ≠ .online ∧
      ({ s with stops := { kstop := true } } : State).stops ≠ {} ∧ (idle .online).queue = [] ∧
      ((openLine 1).queue = comp 0 .opened 1 none none :: [] ∧ (comp 0 .opened 1 none none).state ≠ .ready) := by decide

theorem witness_StepCountsAndBringsTheRow :
    (∀ s ∈ [printing 0 .none .stopped, slewing 11 .stopped, slewing 12 (.running 0), idle .online,
          withFault .coverOpen (printing 0 .none .stopped), withFault .coverOpen (slewing 11 .stopped)],
        s.quiet = true ∧ s.rstLow = false ∧ s.mode ≠ .starting) ∧
      ((withFault .coverOpen (printing 0 .none .stopped)).faultLow = true ∧
        ((withFault .coverOpen (slewing 11 .stopped)).motion.map fun m => decide (m.steps + 1 = m.distance)) = some true) ∧
      (State.reset.quiet = true ∧ State.reset.rstLow = true ∧ (idle .starting).quiet = true ∧ (idle .starting).mode = .starting) ∧
      (((printing 0 .none .stopped).motion.map fun m => decide (m.steps < m.distance)) = some true ∧
        (printing 0 .none .stopped).faults = [] ∧ (printing 0 .none .stopped).faultLow = false) ∧
      ((slewing 11 .stopped).motion.map fun m => decide (m.steps < m.distance)) = some true ∧
      ((slewing 12 (.running 0)).motion.map fun m => decide (m.steps = m.distance)) = some true ∧ (idle .online).motion = none := by
  decide

theorem witness_FrameEventConcludes :
    ((slewing 12 (.running 0)).quiet = true ∧
        ((slewing 12 (.running 0)).motion.map fun m => (decide (m.steps = m.distance), m.row)) = some (true, .none) ∧
        (slewing 12 (.running 0)).faults = [] ∧ (slewing 12 (.running 0)).faultLow = false ∧
        (slewing 12 (.running 0)).plan.isSome = true ∧
        (slewing 12 (.running 0)).queue = comp 9 .printing 1 (some (.space 1)) none :: [] ∧
        (slewing 12 (.running 0)).bufA.holder ≠ some 9 ∧ (slewing 12 (.running 0)).bufB.holder ≠ some 9) ∧
      (∀ s ∈ [withFault .coverOpen (slewing 12 (.still 0)), idle .online, slewing 11 .stopped], s.quiet = true) ∧
      (withFault .coverOpen (slewing 12 (.still 0))).faults ≠ [] ∧ (idle .online).motion = none ∧
      ((slewing 11 .stopped).motion.map fun m => decide (m.steps = m.distance)) = some false ∧
      ((nineAtEnd (.due 0) (.running 0)).quiet = true ∧
        ((nineAtEnd (.due 0) (.running 0)).motion.map fun m => m.row) = some (.due 0)) ∧
      ((feeding .stopped 792).quiet = true ∧
        ((feeding .stopped 792).motion.map fun m => (m.feed, m.row, decide (m.steps = m.distance))) = some (true, .none, true)) := by
  decide

theorem witness_StepIsPacedByItsInterval :
    (let s : State := { slewing 10 .stopped with stepDrive := .pulse, stepRecord := some { time := 0, pulse := false } }
     s.quiet = true ∧ s.stepDrive = .pulse ∧ s.stepRecord = some { time := 0, pulse := false }) ∧
      ((slewing 10 .stopped).quiet = true ∧
        ((slewing 10 .stopped).motion.map fun m => (decide (m.steps = m.distance), m.row)) = some (false, .none) ∧
        (slewing 10 .stopped).faults = [] ∧ (slewing 10 .stopped).faultLow = false ∧ (slewing 10 .stopped).stepDrive = .held) ∧
      ((withFault .coverOpen (slewing 10 .stopped)).quiet = true ∧ (withFault .coverOpen (slewing 10 .stopped)).faulted = true) ∧
      (∀ s ∈ [idle .online, slewing 12 (.running 0), printing 3 (.due 0) .stopped, { slewing 10 .stopped with stepDrive := .released }],
        s.quiet = true ∧ s.stepDrive ≠ .pulse) ∧
      (idle .online).motion = none ∧ ((slewing 12 (.running 0)).motion.map fun m => decide (m.steps = m.distance)) = some true ∧
      ((printing 3 (.due 0) .stopped).motion.map fun m => m.row) = some (.due 0) := by decide

theorem witness_DueRowIsFiredInFull :
    (∀ s ∈ [printing 1 (.due 0) .stopped, printing 9 (.firing 0) .stopped, withFault .coverOpen (printing 1 (.due 0) .stopped)],
        s.quiet = true ∧ s.queue = comp 9 .printing 1 (some (.space 1)) (some .a) :: []) ∧
      ((printing 1 (.due 0) .stopped).motion.map fun m => m.row) = some (.due 0) ∧
      ((printing 1 (.due 0) .stopped).faults = [] ∧ (printing 1 (.due 0) .stopped).faultLow = false) ∧
      (withFault .coverOpen (printing 1 (.due 0) .stopped)).faulted = true ∧
      ((printing 9 (.firing 0) .stopped).motion.map fun m => (m.row, m.steps)) = some (.firing 0, 9) := by decide

theorem witness_FrameHoldAndFrameTimer :
    (let s : State := { printing 0 .none .stopped with frameDelay := some 0 }
     s.quiet = true ∧ s.frameDelay = some 0 ∧ (s.motion.map fun m => decide (m.steps < m.distance)) = some true) ∧
      (slewing 12 (.running 0)).quiet = true ∧
      ((slewing 12 (.running 0)).motion.map fun m => (m.timer, m.row)) = some (.running 0, .none) := by decide

theorem witness_LinesAreHeldAndReleased :
    (∀ s ∈ [{ idle .starting with startInterval := some 0 }, { idle .forming with formingInterval := some 0 }, slewing 11 .stopped,
          nineAtEnd (.firing 0) (.running 0), slewing 12 (.running 0), idle .stopped],
        s.quiet = true ∧ s.rstLow = false) ∧
      ((idle .forming).motion = none ∧ (idle .forming).stepDrive = .held) ∧
      ((slewing 11 .stopped).mode.working = true ∧
        ((slewing 11 .stopped).motion.map fun m => (decide (m.steps + 1 = m.distance), decide (9 ≤ m.steps))) = some (true, true)) ∧
      (((nineAtEnd (.firing 0) (.running 0)).motion.map fun m => (decide (m.steps = m.distance), m.row)) = some (true, .firing 0) ∧
        (nineAtEnd (.firing 0) (.running 0)).frameDelay = none) ∧
      (((slewing 12 (.running 0)).motion.map fun m => (decide (m.steps = m.distance), m.row)) = some (true, .none) ∧
        (slewing 12 (.running 0)).faults = [] ∧ (slewing 12 (.running 0)).faultLow = false) ∧
      ((idle .stopped).mode = .stopped ∧ (idle .stopped).faults = [] ∧ (idle .stopped).faultLow = false ∧
        (idle .stopped).inputBuffer = [] ∧ (idle .stopped).pinitLowSince = none) ∧
      (let s : State :=
        { full with
          parser := { state := .awaitPlace, order := some (.printSpace 0) }
          inputBuffer := [{ value := 1, order := false }], strobe := .write }
       s.quiet = true ∧ s.rstLow = false ∧ s.strobe = .write ∧ s.inputBuffer.length = 1 ∧ s.mode = .held ∧ s.faults = [] ∧
         s.faultLow = false ∧ s.pinitLowSince = none) := by decide

theorem witness_RenderTakesTheOldestClosed :
    let c := comp 1 .closed 2 (some (.space 1)) none
    let s (a b : Option (BitVec 7)) : State :=
      { idle .held with
        queue := [comp 0 .ready 0 (some (.space 1)) none, c], bufA := { holder := a }, bufB := { holder := b } }
    ((s none none).render = none ∧ (s none none).queue = [comp 0 .ready 0 (some (.space 1)) none] ++ c :: [] ∧
        (∀ x ∈ [comp 0 .ready 0 (some (.space 1)) none], x.state ≠ .closed) ∧ c.state = .closed ∧
        (s none none).bufA.holder = none) ∧
      ((s (some 5) none).bufA.holder ≠ none ∧ (s (some 5) none).bufB.holder = none) ∧
      (s (some 5) (some 6)).bufA.holder ≠ none ∧ (s (some 5) (some 6)).bufB.holder ≠ none := by decide

theorem witness_RenderedImageIsTheUnionOfItsLayers :
    let c := comp 0 .rendering 2 (some (.space 1)) (some .a)
    let r : RenderRecord := { seq := 0, buffer := .a, duration := 80, start := 0 }
    let s : State := { idle .held with queue := [c], bufA := { holder := some 0 }, render := some r }
    (s.quiet = true ∧ s.render = some r ∧ s.queue = [] ++ c :: [] ∧ c.state = .rendering) ∧
      (96 ≤ 127 ∧ State.reset.loadable.length = 32 ∧ (16 : BitVec 7).toNat = 16 ∧ (25 : BitVec 7).toNat ≤ 25) := by decide

end Sys2Proof.Tests
end

section
/-! The form unit's arithmetic (R31 to R38): what a skip finds, the lines a motion moves, and what its plan says. Settles O48, O49,
O50 and O51. -/

namespace Sys2Proof.Machine

/-! ## The lines passed -/

/-- The L lines after line n are every line of the form, line n the last of them (R33). -/
theorem exists_passed_line {L n l : Nat} (hn : n < L) (hl : l < L) : ∃ j, 1 ≤ j ∧ j ≤ L ∧ (n + j) % L = l := by
  by_cases h : n < l
  · exact ⟨l - n, by omega, by omega, by rw [Nat.add_sub_of_le (Nat.le_of_lt h), Nat.mod_eq_of_lt hl]⟩
  · refine ⟨l + L - n, by omega, by omega, ?_⟩
    rw [show n + (l + L - n) = l + L by omega, Nat.add_mod_right, Nat.mod_eq_of_lt hl]

/-- Fewer than L lines after line n, the paper stands before another line. -/
theorem passed_line_ne {L n i : Nat} (hn : n < L) (h1 : 1 ≤ i) (hi : i < L) : (n + i) % L ≠ n := by
  by_cases h : n + i < L
  · rw [Nat.mod_eq_of_lt h]
    omega
  · rw [Nat.mod_eq_sub_mod (by omega), Nat.mod_eq_of_lt (by omega)]
    omega

/-- One of the lines passed carries the channel (R38). -/
theorem FormImage.passes_iff (f : FormImage) (n j c : Nat) :
    f.passes n j c = true ↔ ∃ i, 1 ≤ i ∧ i ≤ j ∧ f.carries ((n + i) % f.length) c = true := by
  simp only [FormImage.passes, List.any_eq_true, List.mem_range]
  constructor
  · rintro ⟨k, hk, hc⟩
    exact ⟨k + 1, by omega, hk, hc⟩
  · rintro ⟨i, h1, hi, hc⟩
    obtain ⟨k, rfl⟩ := Nat.exists_eq_add_of_le' h1
    exact ⟨k, hi, hc⟩

/-! ## The search of a skip -/

/-- The search finds j exactly when j is the least from 1 to L whose line carries the channel (R33). -/
theorem FormImage.skipLines_eq_some_iff (f : FormImage) (n c j : Nat) :
    f.skipLines n c = some j ↔
      1 ≤ j ∧ j ≤ f.length ∧ f.carries ((n + j) % f.length) c = true ∧
        ∀ i, 1 ≤ i → i < j → f.carries ((n + i) % f.length) c = false := by
  rw [FormImage.skipLines, List.find?_map, Option.map_eq_some_iff]
  simp only [List.find?_range_eq_some, Function.comp_apply, List.mem_range, Bool.not_eq_true']
  constructor
  · rintro ⟨k, ⟨hc, hk, hmin⟩, rfl⟩
    refine ⟨by omega, hk, hc, fun i h1 hi => ?_⟩
    obtain ⟨i, rfl⟩ := Nat.exists_eq_add_of_le' h1
    exact hmin i (by omega)
  · rintro ⟨h1, hL, hc, hmin⟩
    obtain ⟨k, rfl⟩ := Nat.exists_eq_add_of_le' h1
    exact ⟨k, ⟨hc, hL, fun i hi => hmin (i + 1) (by omega) (by omega)⟩, rfl⟩

/-- The search finds none exactly when no line of the form carries the channel (R34). -/
theorem FormImage.skipLines_eq_none_iff {f : FormImage} {n : Nat} (c : Nat) (hn : n < f.length) :
    f.skipLines n c = none ↔ ∀ l, l < f.length → f.carries l c = false := by
  have hnone : f.skipLines n c = none ↔ ∀ k < f.length, f.carries ((n + (k + 1)) % f.length) c = false := by
    simp [FormImage.skipLines]
  rw [hnone]
  constructor
  · intro h l hl
    obtain ⟨j, h1, hj, rfl⟩ := exists_passed_line hn hl
    obtain ⟨k, rfl⟩ := Nat.exists_eq_add_of_le' h1
    exact h k hj
  · exact fun h k _ => h _ (Nat.mod_lt _ (by omega))

/-- From the only line that carries the channel, the search comes round to it after L lines (R33). -/
theorem FormImage.skipLines_of_only_line {f : FormImage} {n c : Nat} (hn : n < f.length)
    (h : ∀ l, l < f.length → (f.carries l c = true ↔ l = n)) : f.skipLines n c = some f.length := by
  have hround : (n + f.length) % f.length = n := by rw [Nat.add_mod_right, Nat.mod_eq_of_lt hn]
  refine (f.skipLines_eq_some_iff n c _).2 ⟨by omega, Nat.le_refl _, ?_, fun i h1 hi => ?_⟩
  · rw [hround]
    exact (h n hn).2 rfl
  · rw [← Bool.not_eq_true, h _ (Nat.mod_lt _ (by omega))]
    exact passed_line_ne hn h1 hi

/-- In the default form line 0 alone carries channel 1 (R26). -/
theorem FormImage.default_carries_one_iff (l : Nat) : FormImage.default.carries l 1 = true ↔ l = 0 := by
  cases l with
  | zero => simp [FormImage.carries, FormImage.default]
  | succ l =>
    have hset : FormImage.default.channels.getD (l + 1) 0 = 0#12 := by
      rw [FormImage.default, List.getD_cons_succ, List.getD_eq_getElem?_getD, List.getElem?_replicate]
      split <;> rfl
    rw [FormImage.carries, hset]
    simp

/-! ## The lines a motion moves -/

@[simp] theorem FormImage.linesMoved_space (f : FormImage) (n k : Nat) : f.linesMoved n (.space k) = k := rfl

theorem FormImage.linesMoved_skip_of_found {f : FormImage} {n c j : Nat} (h : f.skipLines n c = some j) :
    f.linesMoved n (.skip c) = j := by simp [FormImage.linesMoved, h]

theorem FormImage.linesMoved_skip_of_absent {f : FormImage} {n c : Nat} (h : f.skipLines n c = none) :
    f.linesMoved n (.skip c) = 1 := by simp [FormImage.linesMoved, h]

/-- A skip moves at least one line and at most one form (R33, R34). -/
theorem FormImage.linesMoved_skip_bounds (f : FormImage) (n c : Nat) (hL : 1 ≤ f.length) :
    1 ≤ f.linesMoved n (.skip c) ∧ f.linesMoved n (.skip c) ≤ f.length := by
  cases h : f.skipLines n c with
  | none =>
    rw [FormImage.linesMoved_skip_of_absent h]
    exact ⟨Nat.le_refl 1, hL⟩
  | some j =>
    obtain ⟨h1, hj, -, -⟩ := (f.skipLines_eq_some_iff n c j).1 h
    rw [FormImage.linesMoved_skip_of_found h]
    exact ⟨h1, hj⟩

/-- A line takes 9 or 12 steps (R24). -/
theorem Pitch.rows_bounds (p : Pitch) : 9 ≤ p.rows ∧ p.rows ≤ 12 := by cases p <;> decide

theorem Pitch.rows_eq (p : Pitch) : p.rows = if p = .twelve then 12 else 9 := by cases p <;> rfl

/-! ## The plan -/

section Plan
variable (f : FormImage) (n : Nat) (b : Bool) (a : Action)

@[simp] theorem FormImage.planFor_lines : (f.planFor n b a).lines = f.linesMoved n a := rfl
@[simp] theorem FormImage.planFor_distance : (f.planFor n b a).distance = f.linesMoved n a * f.pitch.rows := rfl
@[simp] theorem FormImage.planFor_landing :
    (f.planFor n b a).landing = (n + f.linesMoved n a) % f.length := rfl
@[simp] theorem FormImage.planFor_increase :
    (f.planFor n b a).increase = (n + f.linesMoved n a) / f.length := rfl
@[simp] theorem FormImage.planFor_overflow :
    (f.planFor n b a).overflow = f.overflowAfter n (f.linesMoved n a) b := rfl

/-- A motion of 1 to m lines takes from 9 to 12 m steps (R35). -/
theorem FormImage.planFor_distance_bounds {m : Nat} (h1 : 1 ≤ f.linesMoved n a) (hm : f.linesMoved n a ≤ m) :
    9 ≤ (f.planFor n b a).distance ∧ (f.planFor n b a).distance ≤ m * 12 := by
  obtain ⟨h9, h12⟩ := f.pitch.rows_bounds
  exact ⟨Nat.mul_le_mul h1 h9, Nat.mul_le_mul hm h12⟩

/-- A motion that moves at most m forms from a line of the form passes at most m form ends (R36). -/
theorem FormImage.planFor_increase_le {m : Nat} (hn : n < f.length) (hm : f.linesMoved n a ≤ m * f.length) :
    (f.planFor n b a).increase ≤ m := by
  refine Nat.le_of_lt_succ (Nat.div_lt_of_lt_mul ?_)
  rw [Nat.mul_succ, Nat.mul_comm]
  omega

/-- A landing on channel 1 clears the latch, whatever it passed (R38). -/
theorem FormImage.planFor_overflow_of_channel_one (h : f.carries (f.planFor n b a).landing 1 = true) :
    (f.planFor n b a).overflow = false := if_pos h

/-- Elsewhere the latch keeps what it held and takes what the lines passed bring (R38). -/
theorem FormImage.planFor_overflow_elsewhere (h : f.carries (f.planFor n b a).landing 1 = false) :
    (f.planFor n b a).overflow = (b || f.passes n (f.planFor n b a).lines 12) := if_neg (by simpa using h)

end Plan

/-! ## The statements -/

/-- Settles O51, from the two rules for the latch (R38). -/
theorem overflowLatchRule : Obligations.OverflowLatchRule := by
  intro f n b a
  refine ⟨f.planFor_overflow_of_channel_one n b a, fun h => ?_⟩
  rw [f.planFor_overflow_elsewhere n b a h, Bool.or_eq_true, FormImage.passes_iff]

/-- Settles O49, from what the search of a skip finds (R33, R34). -/
theorem skipFindsTheNextLine : Obligations.SkipFindsTheNextLine := by
  intro f n c hL hL' hn
  refine ⟨f.skipLines_eq_some_iff n c, fun j hj => ?_, fun honly => ?_, FormImage.skipLines_eq_none_iff c hn,
    fun habs => ?_, ?_⟩
  · obtain ⟨h1, hjL, -, -⟩ := (f.skipLines_eq_some_iff n c j).1 hj
    exact ⟨FormImage.linesMoved_skip_of_found hj, h1, Nat.le_trans hjL hL'⟩
  · exact FormImage.linesMoved_skip_of_found (FormImage.skipLines_of_only_line hn honly)
  · exact ⟨FormImage.linesMoved_skip_of_absent habs, by simp [FormImage.channelAbsent, habs]⟩
  · exact FormImage.linesMoved_skip_of_found
      (FormImage.skipLines_of_only_line (by decide) fun l _ => FormImage.default_carries_one_iff l)

/-- Settles O48, from the bounds of the lines moved and of the rows a line (R32, R35). -/
theorem spacesAndDistances : Obligations.SpacesAndDistances := by
  refine ⟨fun f n k => rfl, fun f n b a => ?_, fun f n b k h1 h3 => ?_, fun f n b c hL hL' => ?_, fun f b hL => ?_,
    fun f b hL => ?_⟩
  · rw [f.planFor_distance, f.pitch.rows_eq, f.planFor_lines]
  · exact ⟨h1, h3, f.planFor_distance_bounds n b (.space k) h1 h3⟩
  · obtain ⟨h1, hj⟩ := f.linesMoved_skip_bounds n c hL
    have hj' := Nat.le_trans hj hL'
    exact ⟨h1, hj', f.planFor_distance_bounds n b (.skip c) h1 hj'⟩
  · simp [hL]
  · simp [hL]

/-- Settles O50: the form ends passed are bounded by the forms moved, and the count is taken modulo 65536 (R36, R37, R39). -/
theorem landingAndFormCount : Obligations.LandingAndFormCount := by
  refine ⟨fun f n b a => ⟨rfl, rfl⟩, fun f n b c hfound => ?_, fun f n b c hL hn => ?_, fun f n b k hL hn hk => ?_,
    fun s p hp => ?_⟩
  · obtain ⟨j, hj⟩ := Option.isSome_iff_exists.1 hfound
    obtain ⟨-, -, hc, -⟩ := (f.skipLines_eq_some_iff n c j).1 hj
    rw [f.planFor_landing, FormImage.linesMoved_skip_of_found hj]
    exact hc
  · exact f.planFor_increase_le n b (.skip c) hn (by simpa using (f.linesMoved_skip_bounds n c hL).2)
  · exact f.planFor_increase_le n b (.space k) hn (by rw [f.linesMoved_space]; omega)
  · rw [State.applyPlan_of_plan hp]
    exact ⟨rfl, by simp⟩

end Sys2Proof.Machine
end

section
/-! A whole LOAD FORM record (R27 to R29, R102, R108): the strobe of a body byte at a station at rest, the staging of the channel
bytes, and the end of the record. Settles O22. -/

namespace Sys2Proof.Machine

/-! ## The run of a record whose bytes wait -/

theorem core_run_zero (s : State) : Host.Core.run core 0 s = .next s := rfl

theorem run_succ_of_next {M : Host.Core} {s t : M.State} (k : Nat) (h : M.step s = .next t) :
    M.run (k + 1) s = M.run k t := by rw [Host.Core.run, h]

/-- A run takes the command at the front of the queue and goes on from its next state. -/
theorem core_run_command {s t : State} {i : Instr} {l : List Instr} (k : Nat)
    (h : exec i { s with pending := l } = .next t) :
    Host.Core.run core (k + 1) { s with pending := i :: l } = Host.Core.run core k t :=
  run_succ_of_next (M := core) k h

/-- A station whose parser is in BODY and that is otherwise at rest takes the next body byte; what waits does not matter
(R99). -/
theorem State.takesBody_of_takesOrders {s : State} {p : Parser} {o : RecordOrder} (l : List Instr) (h : s.takesOrders = true)
    (hs : p.state = .body) (ho : p.order = some o) :
    ({ s.strobed with parser := p, pending := l } : State).takesBody o = true := by
  obtain ⟨hq, ha, hm, hb, -⟩ := s.takesOrders_iff.1 h
  obtain ⟨-, -, hr, hmo, hf, hk⟩ := s.quiet_iff.1 hq
  refine (State.takesBody_iff _ o).2 ⟨(State.quiet_iff _).2 ⟨?_, ?_, hr, hmo, hf, hk⟩, ha, hm, hb, hs, ho⟩
  · simp [State.placeDue, hs]
  · simp [State.drainDue, hs]

/-- A data byte at the front of the queue is the next body byte of a record in BODY (R102). -/
theorem core_run_dataByte_body {s : State} {o : RecordOrder} (v : Byte) (l : List Instr) (k : Nat)
    (h : s.takesBody o = true) :
    Host.Core.run core (k + 1) { s with pending := .dataByte v :: l } =
      Host.Core.run core k (({ s with pending := l } : State).strobed.bodyByte o v) :=
  core_run_command k (execDataByte_body (s := { s with pending := l }) v h)

/-! ## The staging of a form -/

/-- Channel c of a line is bit c - 1 of its first channel byte, or bit c - 9 of its second (R27). -/
theorem channelSet_getLsbD (a b : Byte) {c : Nat} (h1 : 1 ≤ c) (hc : c ≤ 12) :
    (channelSet a b).getLsbD (c - 1) = if c ≤ 8 then a.getLsbD (c - 1) else b.getLsbD (c - 9) := by
  rw [channelSet, BitVec.getLsbD_append]
  by_cases h : c ≤ 8
  · rw [if_pos h, if_pos (by omega)]
  · rw [if_neg h, if_neg (by omega), BitVec.getLsbD_extractLsb', Nat.zero_add, show c - 1 - 8 = c - 9 by omega,
      decide_eq_true (by omega), Bool.true_and]

theorem stagePitch_six : stagePitch 6 = .valid .twelve := rfl
theorem stagePitch_eight : stagePitch 8 = .valid .nine := rfl

/-- Every pitch code but 6 and 8 is invalid (R27). -/
theorem stagePitch_other {v : Byte} (h6 : v ≠ 6) (h8 : v ≠ 8) : stagePitch v = .invalid := by
  have h6' : v.toNat ≠ 6 := fun h => h6 (BitVec.eq_of_toNat_eq h)
  have h8' : v.toNat ≠ 8 := fun h => h8 (BitVec.eq_of_toNat_eq h)
  rw [stagePitch, if_neg h6', if_neg h8']

theorem stagePitch_ne_absent (v : Byte) : stagePitch v ≠ .absent := by
  unfold stagePitch
  split
  · simp
  · split <;> simp

/-- The first 144 sets of a list with one set more: it joins while fewer than 144 stand there (R27). -/
theorem take_channels_append (cs : List ChannelSet) (x : ChannelSet) :
    (if (cs.take 144).length < 144 then cs.take 144 ++ [x] else cs.take 144) = (cs ++ [x]).take 144 := by
  by_cases h : cs.length < 144
  · have hx : (cs ++ [x]).length ≤ 144 := by
      rw [List.length_append, List.length_singleton]
      omega
    rw [List.take_of_length_le (Nat.le_of_lt h), if_pos h, List.take_of_length_le hx]
  · have hfull : ¬ (cs.take 144).length < 144 := by
      rw [List.length_take]
      omega
    rw [if_neg hfull, List.take_append_of_le_length (by omega)]

/-- The stage after the pitch code, a count of n lines and the channel sets `cs`: the sets of lines 144 on are not staged
(R27). -/
def formStaged (code : Byte) (n : Nat) (cs : List ChannelSet) : FormStage :=
  { pitch := stagePitch code, length := some n, channels := cs.take 144 }

/-- The two channel bytes of a line add its set to the stage (R27). -/
theorem channelByte_pair (code a b : Byte) (n : Nat) (cs : List ChannelSet) :
    ((formStaged code n cs).channelByte a).channelByte b = formStaged code n (cs ++ [channelSet a b]) :=
  congrArg (fun l => ({ pitch := stagePitch code, length := some n, channels := l } : FormStage))
    (take_channels_append cs (channelSet a b))

/-- The judgement of a stage with a valid pitch code rests on its length (R28). -/
theorem judge_formStaged_of_pitch {code : Byte} {p : Pitch} (cs : List ChannelSet) (hp : stagePitch code = .valid p) :
    (formStaged code cs.length cs).judge =
      if 1 ≤ cs.length ∧ cs.length ≤ 144 then some { pitch := p, length := cs.length, channels := cs } else none := by
  by_cases h : 1 ≤ cs.length ∧ cs.length ≤ 144
  · simp [formStaged, FormStage.judge, hp, h, List.take_of_length_le h.2]
  · simp [formStaged, FormStage.judge, hp, h]

theorem judge_formStaged_of_invalid {code : Byte} (n : Nat) (cs : List ChannelSet) (hp : stagePitch code = .invalid) :
    (formStaged code n cs).judge = none := by
  simp [formStaged, FormStage.judge, hp]

/-- A staged form with all its lines is installed as it stands where its pitch code and its length are valid, and is rejected
elsewhere (R28). -/
theorem judge_formStaged (code : Byte) (cs : List ChannelSet) :
    (formStaged code cs.length cs).judge =
      if (code = 6 ∨ code = 8) ∧ 1 ≤ cs.length ∧ cs.length ≤ 144 then
        some { pitch := if code = 6 then .twelve else .nine, length := cs.length, channels := cs }
      else none := by
  by_cases h6 : code = 6
  · subst h6
    simpa using judge_formStaged_of_pitch cs stagePitch_six
  · by_cases h8 : code = 8
    · subst h8
      simpa using judge_formStaged_of_pitch cs stagePitch_eight
    · rw [judge_formStaged_of_invalid _ _ (stagePitch_other h6 h8), if_neg fun h => h.1.elim h6 h8]

/-! ## The state within a LOAD FORM body -/

/-- A station that was at rest in `s`, in the body of a LOAD FORM with the stage `g` and `r` bytes to come (R98, R108). -/
def State.loadingForm (s : State) (g : FormStage) (r : Option Nat) : State :=
  { s.strobed with
    parser :=
      { state := .body, order := some .loadForm, remaining := r, formStage := g, checkMode := s.parser.checkMode } }

/-- The body goes on with n bytes to come, or the record ends (R102). -/
theorem State.loadingForm_withRemaining (s : State) (g : FormStage) (r : Option Nat) (n : Nat) :
    (s.loadingForm g r).withRemaining .loadForm n =
      if n = 0 then (s.loadingForm g (some 0)).finishForm else s.loadingForm g (some n) := by
  by_cases h : n = 0
  · subst h
    rfl
  · simp [State.withRemaining, h, State.loadingForm]

/-- A LOAD FORM at rest enters its body (R108, R111). -/
theorem execLoadForm_at_rest {s : State} (h : s.takesOrders = true) (hd : s.drained = true) :
    exec .loadForm s = .next (s.loadingForm {} none) := by
  have hdec : decodeRecordOrder (encodeRecordOrder .loadForm) = some .loadForm := by decide
  have hdrained : s.strobed.drained = true := hd
  have hstrobe : strobeOrder (encodeRecordOrder .loadForm) s = s.strobed.startRecord .loadForm := by
    rw [strobeOrder_idle (decodeControlOrder_of_record hdec) h, hdec]
  show Host.Outcome.next (strobeOrder (encodeRecordOrder .loadForm) s) = _
  rw [hstrobe, State.startRecord, State.drainOrder, if_pos hdrained]
  rfl

section Body
variable (s : State) (g : FormStage)

theorem State.loadingForm_pitchByte (v : Byte) (hg : g.pitch = .absent) :
    (s.loadingForm g none).bodyByte .loadForm v = s.loadingForm { g with pitch := stagePitch v } none := by
  simp [State.bodyByte, State.loadingForm, hg]

theorem State.loadingForm_lengthByte (v : Byte) (hg : g.pitch ≠ .absent) :
    (s.loadingForm g none).bodyByte .loadForm v =
      (s.loadingForm { g with length := some v.toNat } none).withRemaining .loadForm (2 * v.toNat) := by
  cases hp : g.pitch <;> simp_all [State.bodyByte, State.loadingForm]

theorem State.loadingForm_channelByte (v : Byte) (m : Nat) (hg : g.pitch ≠ .absent) :
    (s.loadingForm g (some m)).bodyByte .loadForm v =
      (s.loadingForm (g.channelByte v) (some m)).withRemaining .loadForm (m - 1) := by
  cases hp : g.pitch <;> simp_all [State.bodyByte, State.loadingForm]

end Body

theorem FormStage.channelByte_pitch (g : FormStage) (v : Byte) : (g.channelByte v).pitch = g.pitch := by
  cases hh : g.half <;> simp [FormStage.channelByte, hh]

/-- A data byte at the front of the queue within the body (R102). -/
theorem core_run_loadingForm {s : State} (h : s.takesOrders = true) (g : FormStage) (r : Option Nat) (v : Byte)
    (l : List Instr) (k : Nat) :
    Host.Core.run core (k + 1) (({ s with pending := .dataByte v :: l } : State).loadingForm g r) =
      Host.Core.run core k ((({ s with pending := l } : State).loadingForm g r).bodyByte .loadForm v) :=
  core_run_dataByte_body (s := s.loadingForm g r) v l k (State.takesBody_of_takesOrders _ h rfl rfl)

/-- The channel bytes of the lines, from any stage on, and the end of the record: induction on the lines, two bytes each. -/
theorem core_run_channelBytes {s : State} (h : s.takesOrders = true) (code : Byte) (n : Nat) :
    ∀ (pairs : List (Byte × Byte)) (cs : List ChannelSet) (r : Option Nat),
      Host.Core.run core (2 * pairs.length)
          ((({ s with pending := pairs.flatMap fun p => [.dataByte p.1, .dataByte p.2] } : State).loadingForm
            (formStaged code n cs) r).withRemaining .loadForm (2 * pairs.length)) =
        .next ((({ s with pending := [] } : State).loadingForm
          (formStaged code n (cs ++ pairs.map fun p => channelSet p.1 p.2)) (some 0)).finishForm) := by
  intro pairs
  induction pairs with
  | nil =>
    intro cs r
    rw [State.loadingForm_withRemaining]
    simp [core_run_zero]
  | cons p pairs ih =>
    intro cs r
    have hp : (formStaged code n cs).pitch ≠ .absent := stagePitch_ne_absent code
    rw [State.loadingForm_withRemaining, if_neg (by simp), List.length_cons, Nat.mul_succ, List.flatMap_cons,
      List.cons_append, core_run_loadingForm h, State.loadingForm_channelByte _ _ _ _ hp,
      State.loadingForm_withRemaining, if_neg (by omega), List.cons_append, core_run_loadingForm h,
      State.loadingForm_channelByte _ _ _ _ (by rwa [FormStage.channelByte_pitch]), channelByte_pair]
    simpa using ih (cs ++ [channelSet p.1 p.2]) (some (2 * pairs.length + 1))

/-! ## The end of the record -/

/-- A form judged good is installed at the top of the form (R28, R29). -/
theorem State.loadingForm_finish_installed {s : State} {g : FormStage} {f : FormImage} (hj : g.judge = some f) :
    (s.loadingForm g (some 0)).finishForm =
      { s.strobed with parser := s.idleParser, form := f, line := 0, formCount := 0, overflow := false } := by
  simp [State.finishForm, State.loadingForm, hj, State.clearParser, State.topOfForm, State.idleParser]

/-- A form judged bad raises LOAD REJECTED and changes nothing else (R28). -/
theorem State.loadingForm_finish_rejected {s : State} {g : FormStage} (hj : g.judge = none) :
    (s.loadingForm g (some 0)).finishForm =
      { s.strobed with parser := s.idleParser, warnings := addOnce .loadRejected s.warnings } := by
  simp [State.finishForm, State.loadingForm, hj, State.clearParser, State.raise, State.idleParser]

/-- The whole record, up to its end: the order, the pitch code, the count and the channel bytes (R102, R108). -/
theorem core_run_loadForm {s : State} (h : s.takesOrders = true) (hd : s.drained = true) (code : Byte)
    (pairs : List (Byte × Byte)) (hlen : pairs.length ≤ 255) :
    Host.Core.run core (2 * pairs.length + 3)
        { s with
          pending := .loadForm :: .dataByte code :: .dataByte (BitVec.ofNat 8 pairs.length) ::
            pairs.flatMap fun p => [.dataByte p.1, .dataByte p.2] } =
      .next ((({ s with pending := [] } : State).loadingForm
        (formStaged code pairs.length (pairs.map fun p => channelSet p.1 p.2)) (some 0)).finishForm) := by
  have hcount : (BitVec.ofNat 8 pairs.length).toNat = pairs.length := by
    rw [BitVec.toNat_ofNat, Nat.mod_eq_of_lt (by omega)]
  have horder (l : List Instr) :
      exec .loadForm { s with pending := l } = .next (({ s with pending := l } : State).loadingForm {} none) :=
    execLoadForm_at_rest h hd
  refine (core_run_command (2 * pairs.length + 2) (horder _)).trans ?_
  rw [core_run_loadingForm h, State.loadingForm_pitchByte _ _ _ rfl, core_run_loadingForm h,
    State.loadingForm_lengthByte _ _ _ (stagePitch_ne_absent code), hcount]
  exact core_run_channelBytes h code pairs.length pairs [] none

/-- Settles O22: the run of the whole record, and the judgement of what it staged. -/
theorem formLoadInstallsOrIsRejected : Obligations.FormLoadInstallsOrIsRejected := by
  refine ⟨fun a b c h1 hc => channelSet_getLsbD a b h1 hc, fun s code pairs h hp hd hlen => ?_⟩
  have hs : ({ s with pending := [] } : State) = s := by rw [← hp]
  have hj := judge_formStaged code (pairs.map fun p => channelSet p.1 p.2)
  rw [List.length_map] at hj
  refine (core_run_loadForm h hd code pairs hlen).trans (congrArg Host.Outcome.next ?_)
  rw [hs]
  by_cases hgood : (code = 6 ∨ code = 8) ∧ 1 ≤ pairs.length ∧ pairs.length ≤ 144
  · exact (State.loadingForm_finish_installed (hj.trans (if_pos hgood))).trans (if_pos hgood).symm
  · exact (State.loadingForm_finish_rejected (hj.trans (if_neg hgood))).trans (if_neg hgood).symm

end Sys2Proof.Machine
end

section
/-! Paper motion at a station with nothing due (R43 to R58): the start of a motion, the step handshake, the firing of rows, the frame
event, and the shared lines held and released. Settles O52, O53, O54, O55, O56, O57 and O58. -/

namespace Sys2Proof.Machine

/-! ## What the tests on the state say -/

theorem Motion.atEnd_iff (m : Motion) : m.atEnd = true ↔ m.steps = m.distance := by simp [Motion.atEnd]

theorem Motion.atEnd_eq_false_iff (m : Motion) : m.atEnd = false ↔ m.steps ≠ m.distance := by simp [Motion.atEnd]

theorem State.faulted_iff (s : State) : s.faulted = true ↔ s.faults ≠ [] ∨ s.faultLow = true := by simp [State.faulted]

theorem State.faulted_eq_false_iff (s : State) : s.faulted = false ↔ s.faults = [] ∧ s.faultLow = false := by
  simp [State.faulted]

theorem StopSet.any_eq_false_iff (t : StopSet) : t.any = false ↔ t = {} := by
  obtain ⟨a, b, c, d⟩ := t
  simp [StopSet.any, and_assoc]

/-- The modes in which a station takes no record strobes (R98, R154). -/
theorem Mode.working_eq_false_iff (m : Mode) : m.working = false ↔ m = .starting ∨ m = .forming := by
  cases m <;> simp [Mode.working]

/-- A station free to print with a READY composite at its head (R44, R45). -/
theorem State.motionDue_iff (s : State) :
    s.motionDue = true ↔ s.motion = none ∧ s.faulted = false ∧ s.mode = .online ∧ s.stops = {} ∧
      ∃ c rest, s.queue = c :: rest ∧ c.state = .ready ∧ c.action.isSome = true := by
  cases hq : s.queue <;>
    simp [State.motionDue, hq, ← StopSet.any_eq_false_iff, and_assoc]

/-- A motion waits at its end with its row NONE (R54, R55). -/
theorem State.waiting_iff (s : State) :
    s.waiting = true ↔ ∃ m, s.motion = some m ∧ m.steps = m.distance ∧ m.row = .none := by
  cases hm : s.motion <;> simp [State.waiting, hm, Motion.atEnd_iff]

/-- STEP may be released at a stepping station that is not faulted, with its row NONE (R47, R48). -/
theorem State.mayRelease_iff (s : State) :
    s.mayRelease = true ↔ s.faulted = false ∧ s.stepDrive ≠ .released ∧
      ∃ m, s.motion = some m ∧ m.steps ≠ m.distance ∧ m.row = .none := by
  cases hm : s.motion with
  | none => simp [State.mayRelease, State.stepping, hm]
  | some m =>
    simp only [State.mayRelease, State.stepping, hm, Bool.and_eq_true, Bool.not_eq_true', Motion.atEnd_eq_false_iff,
      bne_iff_ne, beq_iff_eq, Option.some.injEq, exists_eq_left']
    constructor
    · rintro ⟨⟨⟨hd, hf⟩, hs⟩, hr⟩
      exact ⟨hf, hs, hd, hr⟩
    · rintro ⟨hf, hs, hd, hr⟩
      exact ⟨⟨⟨hd, hf⟩, hs⟩, hr⟩

/-- The print periods of the RATE straps (R48). -/
theorem Config.printPeriod_eq : ∀ r : BitVec 2,
    Config.printPeriod r = if r = 0 then 2500 else if r = 1 then 3000 else if r = 2 then 4000 else 5000 := by decide

/-- The pulse widths of the FIRE straps (R48). -/
theorem Config.fireWidth_eq : ∀ f : BitVec 2,
    Config.fireWidth f = if f = 0 then 300 else if f = 1 then 400 else if f = 2 then 500 else 600 := by decide

/-! ## Faults in a motion -/

/-- The cutoff of a motion is the interruption that the statements write out (R53, R57). -/
theorem Motion.cut_eq_interrupted (now : Micros) (m : Motion) : m.cut now = m.interrupted now := by
  obtain ⟨feed, distance, steps, firing, row, timer⟩ := m
  cases row <;> cases timer <;> rfl

/-- A motion with no pulse and no running timer has nothing to cut off. -/
theorem Motion.cut_of_still {now : Micros} {m : Motion} (hr : m.row = .none) (ht : ∀ x, m.timer ≠ .running x) :
    m.cut now = m := by
  obtain ⟨feed, distance, steps, firing, row, timer⟩ := m
  subst hr
  cases timer with
  | running x => exact absurd rfl (ht x)
  | _ => rfl

/-- Recording a fault leaves the stopped state of the statements (R141, R142, R144). -/
theorem State.recordFault_eq_stoppedBy (s : State) (f : FaultKind) : s.recordFault f = s.stoppedBy f := by
  have hcut : (fun m : Motion => m.cut s.clock) = Motion.interrupted s.clock := funext (Motion.cut_eq_interrupted s.clock)
  simp [State.recordFault, State.cutoff, State.stoppedBy, hcut, addOnce]

/-- A first fault at a boundary (R141, R142, R144). -/
theorem State.recordFault_of_boundary {s : State} (f : FaultKind) (hm : s.motion = none) (hf : s.faults = []) :
    s.recordFault f = { s with faults := [f], faultLow := true, stepDrive := .held } := by
  rw [State.recordFault, State.cutoff_of_boundary hm, hf, addOnce_nil]

/-! ## The start of a motion -/

/-- BLOCKED keeps the oldest composite from its motion (R149). -/
theorem State.startMotion_of_blocked {s : State} {c : Composite} {rest : List Composite} (hd : s.motionDue = true)
    (hq : s.queue = c :: rest) (hb : c.flags.blocked = true) : s.startMotion = s.recordFault .dataCheck := by
  simp [State.startMotion, hd, hq, hb]

/-- The oldest composite goes to PRINTING with its motion (R45, R46). -/
theorem State.startMotion_of_clear {s : State} {c : Composite} {rest : List Composite} {a : Action} (hd : s.motionDue = true)
    (hq : s.queue = c :: rest) (hb : c.flags.blocked = false) (ha : c.action = some a) :
    s.startMotion = { s with queue := { c with state := .printing } :: rest }.beginMotion false (!c.layers.isEmpty) a := by
  simp [State.startMotion, hd, hq, hb, ha]

/-! ## The conclusion of a motion -/

/-- KSTOP wins over HOLD and DISCARD (R58). -/
theorem State.applyStops_mode (s : State) :
    s.applyStops.mode =
      if s.stops.kstop then .stopped else if s.stops.hold || s.stops.discard then .held else s.mode := by
  rw [State.applyStops_eq]
  cases s.stops.paper <;> rfl

theorem State.applyStops_rstLow (s : State) : s.applyStops.rstLow = s.rstLow := by
  rw [State.applyStops_eq]
  cases s.stops.paper <;> rfl

theorem State.applyStops_stepDrive {s : State} (h : s.stepDrive = .held) : s.applyStops.stepDrive = .held := by
  rw [State.applyStops_eq]
  cases s.stops.paper
  · exact h
  · rfl

theorem State.applyStops_motion {s : State} (h : s.motion = none) : s.applyStops.motion = none := by
  rw [State.applyStops_eq]
  cases s.stops.paper <;> simp [h]

/-- A PAPER stop among the pending stops leaves the station faulted (R58). -/
theorem State.applyStops_faulted {s : State} (h : s.stops.paper = true) : s.applyStops.faulted = true := by
  rw [State.applyStops_eq, h]
  exact State.recordFault_faulted _ _

/-- The pending stops leave a working mode working (R58). -/
theorem State.applyStops_working {s : State} (h : s.mode.working = true) : s.applyStops.mode.working = true := by
  rw [State.applyStops_mode]
  split
  · rfl
  · split
    · rfl
    · exact h

/-- A composite that holds no buffer departs and leaves both as they are (R18). -/
theorem State.departOldest_of_unheld {s : State}
    (h : ∀ c rest, s.queue = c :: rest → s.bufA.holder ≠ some c.seq ∧ s.bufB.holder ≠ some c.seq) :
    s.departOldest = { s with queue := s.queue.tail } := by
  obtain ⟨hq, e⟩ | ⟨c, rest, hq, e⟩ := s.departOldest_cases
  · rw [e, hq, List.tail_nil, ← hq]
  · obtain ⟨ha, hb⟩ := h c rest hq
    rw [e, hq, ImageBuffer.freeOf, if_neg ha, ImageBuffer.freeOf, if_neg hb, List.tail_cons]

/-- The pending stops of a station at a boundary that is not faulted (R58). -/
theorem State.applyStops_of_boundary {s : State} (hm : s.motion = none) (hd : s.stepDrive = .held)
    (hl : s.faultLow = false) :
    s.applyStops =
      { s with
        stops := {}
        mode := if s.stops.kstop then .stopped else if s.stops.hold || s.stops.discard then .held else s.mode
        faults := if s.stops.paper then addOnce .paperOut s.faults else s.faults
        faultLow := s.stops.paper } := by
  rw [State.applyStops_eq]
  cases hp : s.stops.paper with
  | true => simp [State.recordFault, State.cutoff, hm, hd]
  | false =>
    rw [if_neg Bool.false_ne_true, if_neg Bool.false_ne_true]
    congr

/-- The conclusion of a motion whose composite has given its buffer back is the concluded state of the statements (R39, R56,
R58). -/
theorem State.conclude_eq_concluded {s : State} {m : Motion} {p : Plan} (hm : s.motion = some m) (hp : s.plan = some p)
    (hl : s.faultLow = false)
    (hb : m.feed = false → ∀ c rest, s.queue = c :: rest → s.bufA.holder ≠ some c.seq ∧ s.bufB.holder ≠ some c.seq) :
    s.conclude = s.concluded m p := by
  have hleft : (if m.feed then s.applyPlan else s.applyPlan.departOldest) =
      { s with
        line := p.landing
        formCount := s.formCount + BitVec.ofNat 16 p.increase
        overflow := p.overflow
        queue := if m.feed then s.queue else s.queue.tail } := by
    rw [State.applyPlan_of_plan hp]
    cases hf : m.feed with
    | true => rfl
    | false => exact State.departOldest_of_unheld (hb hf)
  rw [State.conclude_of_motion hm, hleft]
  exact State.applyStops_of_boundary rfl rfl hl

/-- Whatever the plan and the queue, a motion is concluded by dropping it and applying the pending stops (R56). -/
theorem State.conclude_drops_motion {s : State} {m : Motion} (hm : s.motion = some m) :
    ∃ u : State, s.conclude = u.dropMotion.applyStops ∧ u.mode = s.mode ∧ u.rstLow = s.rstLow := by
  refine ⟨_, State.conclude_of_motion hm, ?_⟩
  have hplan : s.applyPlan.mode = s.mode ∧ s.applyPlan.rstLow = s.rstLow := by
    cases hp : s.plan <;> simp [State.applyPlan, hp]
  cases m.feed with
  | true => exact hplan
  | false =>
    obtain ⟨-, e⟩ | ⟨c, rest, -, e⟩ := s.applyPlan.departOldest_cases <;> simpa [e] using hplan

/-! ## The rows of a motion -/

/-- No row falls due with firing OFF or from the tenth step on (R49). -/
theorem Motion.takeStep_row_of_past {now : Micros} {low : Bool} {m : Motion} (h : m.firing = false ∨ 9 ≤ m.steps) :
    (m.takeStep now low).row = .none := by
  refine if_neg ?_
  rw [Bool.and_eq_true, decide_eq_true_eq]
  rintro ⟨hf, hs⟩
  rcases h with h | h
  · simp [h] at hf
  · omega

/-- Which row is due does not hang on the clock (R51). -/
@[simp] theorem State.waitUntil_dueRow (s : State) (t : Micros) (n : Nat) : (s.waitUntil t).dueRow n = s.dueRow n := rfl

/-! ## The commands at a station with nothing due -/

section Quiet
variable {s : State} {m : Motion} {x : Micros}

/-- A step in full reset or STARTING is none (R125). -/
theorem exec_step_of_no_step (hq : s.quiet = true) (h : s.rstLow = true ∨ s.mode = .starting) :
    exec .step s = .next s := by
  show execStep s = _
  unfold execStep
  rw [State.catchUp_of_quiet hq]
  exact if_pos h

/-- A step of a stepping station is counted (R49). -/
theorem exec_step_of_stepping (hq : s.quiet = true) (hr : s.rstLow = false) (hs : s.mode ≠ .starting)
    (hm : s.motion = some m) (hd : m.steps ≠ m.distance) :
    exec .step s = .next
      { s with
        motion := some (m.takeStep s.clock s.faultLow)
        stepRecord := some { time := s.clock, pulse := false }
        stepDrive := if s.faulted then .held else .pulse } := by
  show execStep s = _
  simp [execStep, State.catchUp_of_quiet hq, hr, hs, hm, m.atEnd_eq_false_iff.2 hd]

/-- A step at a boundary or at a motion's end records FRAME SKEW (R50). -/
theorem exec_step_of_not_stepping (hq : s.quiet = true) (hr : s.rstLow = false) (hs : s.mode ≠ .starting)
    (h : ∀ m, s.motion = some m → m.steps = m.distance) : exec .step s = .next (s.stoppedBy .frameSkew) := by
  show execStep s = _
  rw [← State.recordFault_eq_stoppedBy]
  cases hm : s.motion with
  | none => simp [execStep, State.catchUp_of_quiet hq, hr, hs, hm]
  | some m => simp [execStep, State.catchUp_of_quiet hq, hr, hs, hm, m.atEnd_iff.2 (h m hm)]

/-- The frame event of a station that waits at its end (R56). -/
theorem exec_frameEvent_of_waiting (hq : s.quiet = true) (hw : s.waiting = true) (hf : s.faulted = false) :
    exec .frameEvent s = .next { s.conclude with frameMoment := true } := by
  show execFrameEvent s = _
  simp [execFrameEvent, State.catchUp_of_quiet hq, hw, hf]

/-- The frame event of any other station (R56). -/
theorem exec_frameEvent_of_not_waiting (hq : s.quiet = true) (h : s.faulted = true ∨ s.waiting = false) :
    exec .frameEvent s = .next s := by
  show execFrameEvent s = _
  rcases h with h | h <;> simp [execFrameEvent, State.catchUp_of_quiet hq, h]

/-- STEP is pulled low when the pulse of the last step is over (R47). -/
theorem exec_stepPulseEnd_of_pulse {r : StepRecord} (hq : s.quiet = true) (hd : s.stepDrive = .pulse)
    (hr : s.stepRecord = some r) :
    exec .stepPulseEnd s = .next { s with clock := max s.clock (r.time + 50), stepDrive := .held } := by
  show execStepPulseEnd s = _
  unfold execStepPulseEnd
  rw [State.catchUp_of_quiet hq]
  simp [hd, hr, Config.stepPulse]

/-- With no pulse there is none to end (R47). -/
theorem exec_stepPulseEnd_of_no_pulse (hq : s.quiet = true) (hd : s.stepDrive ≠ .pulse) :
    exec .stepPulseEnd s = .next s := by
  show execStepPulseEnd s = _
  unfold execStepPulseEnd
  rw [State.catchUp_of_quiet hq]
  cases h : s.stepDrive with
  | pulse => exact absurd h hd
  | held => simp [h]
  | released => simp [h]

/-- STEP is released once its interval has elapsed (R48). -/
theorem exec_stepRelease_of_mayRelease (hq : s.quiet = true) (h : s.mayRelease = true) :
    exec .stepRelease s = .next { s with stepDrive := .released, clock := max s.clock s.stepDue } := by
  show execStepRelease s = _
  unfold execStepRelease
  rw [State.catchUp_of_quiet hq]
  simp [h]

/-- A station that may not release STEP keeps it (R48). -/
theorem exec_stepRelease_of_not_mayRelease (hq : s.quiet = true) (h : s.mayRelease = false) :
    exec .stepRelease s = .next s := by
  show execStepRelease s = _
  unfold execStepRelease
  rw [State.catchUp_of_quiet hq]
  simp only [h, Bool.false_eq_true, if_false]

/-- A DUE row is latched as its pulse begins (R51, R53, log 31). -/
theorem exec_firePulseStart_of_due (hq : s.quiet = true) (hm : s.motion = some m) (hr : m.row = .due x)
    (hf : s.faulted = false) :
    exec .firePulseStart s = .next
      { s with
        clock := max s.clock (x + 100)
        motion := some { m with row := .firing (max s.clock (x + 100)) }
        stepRecord := s.stepRecord.map fun r => { r with pulse := true }
        headLatch := (s.dueRow m.steps).take (8 * s.straps.effective) } := by
  show execFirePulseStart s = _
  unfold execFirePulseStart
  rw [State.catchUp_of_quiet hq]
  simp [hm, hr, hf, Config.fireDelay]

/-- A faulted station fires no row (R144). -/
theorem exec_firePulseStart_of_faulted (hq : s.quiet = true) (hm : s.motion = some m) (hr : m.row = .due x)
    (hf : s.faulted = true) : exec .firePulseStart s = .next s := by
  show execFirePulseStart s = _
  unfold execFirePulseStart
  rw [State.catchUp_of_quiet hq]
  simp [hm, hr, hf]

/-- A pulse ends when it has run its width; the end of row 8's frees the buffer (R52, R75). -/
theorem exec_firePulseEnd_of_firing (hq : s.quiet = true) (hm : s.motion = some m) (hr : m.row = .firing x) :
    exec .firePulseEnd s = .next
      (let u : State :=
        { s with clock := max s.clock (x + s.straps.fireWidth), motion := some { m with row := .none } }
       if m.steps = 9 then u.freeOldestBuffer else u) := by
  show execFirePulseEnd s = _
  unfold execFirePulseEnd
  rw [State.catchUp_of_quiet hq]
  simp [hm, hr]

/-- The delay of FRAME is over (R54). -/
theorem exec_frameHoldDelay_of_delay (hq : s.quiet = true) (h : s.frameDelay = some x) :
    exec .frameHoldDelay s = .next { s with clock := max s.clock (x + 50), frameDelay := none } := by
  show execFrameHoldDelay s = _
  unfold execFrameHoldDelay
  rw [State.catchUp_of_quiet hq]
  simp [h, Config.frameHold]

/-- A running frame timer expires at 100 ms (R57). -/
theorem exec_frameTimerExpiry_of_running (hq : s.quiet = true) (hm : s.motion = some m) (ht : m.timer = .running x) :
    exec .frameTimerExpiry s = .next
      (({ s with
          clock := max s.clock (x + 100000)
          motion := some { m with timer := .expired } } : State).recordFault .frameSkew) := by
  show execFrameTimerExpiry s = _
  unfold execFrameTimerExpiry
  rw [State.catchUp_of_quiet hq]
  simp [hm, ht, Config.frameTimeout]

/-- The start interval ends with the station in FORMING (R125, R126). -/
theorem exec_startIntervalExpiry_of_running (hq : s.quiet = true) (h : s.startInterval = some x) :
    exec .startIntervalExpiry s = .next
      { s with
        clock := max s.clock (x + 10000)
        startInterval := none
        mode := .forming
        formingInterval := if s.inputs.joinHigh then some (max s.clock (x + 10000)) else none } := by
  show execStartIntervalExpiry s = _
  unfold execStartIntervalExpiry
  rw [State.catchUp_of_quiet hq]
  cases hj : s.inputs.joinHigh <;> simp [h, hj, Config.startInterval]

/-- The forming interval ends with the station in STOPPED, where it reads its sensors (R126, R145, R147). -/
theorem exec_formingIntervalExpiry_of_running (hq : s.quiet = true) (h : s.formingInterval = some x) :
    exec .formingIntervalExpiry s = .next
      ({ s with clock := max s.clock (x + 50000), formingInterval := none, mode := .stopped } : State).readSensors := by
  show execFormingIntervalExpiry s = _
  unfold execFormingIntervalExpiry
  rw [State.catchUp_of_quiet hq]
  simp [h, Config.formingInterval]

/-- KSTART in a working mode (R135). -/
theorem exec_kstart_of_working (hq : s.quiet = true) (hr : s.rstLow = false) (hw : s.mode.working = true) :
    exec .kstart s = .next ({ s with inputs := { s.inputs with kstart := true } } : State).startKey := by
  show execKstart s = _
  simp [execKstart, State.catchUp_of_quiet hq, hr, hw]

/-- HOLD at a station in HELD that takes the strobe does nothing more (R132). -/
theorem exec_hold_of_held (hq : s.quiet = true) (ha : s.answers = true) (hm : s.mode = .held) :
    exec .hold s = .next s.strobed := by
  show Host.Outcome.next (strobeOrder (encodeControlOrder .hold) s) = _
  have hidle : s.strobed.holdOrder = s.strobed := if_neg (by show s.mode ≠ .online; simp [hm])
  rw [strobeOrder_control, controlStrobe, strobeControl_taken _ _ hq ha, hm, hidle]
  rfl

end Quiet

/-! ## The lines held -/

/-- JOIN is held in full reset and STARTING (R137). -/
theorem State.holdsJoin_iff (s : State) : s.holdsJoin = true ↔ s.rstLow = true ∨ s.mode = .starting := by
  simp [State.holdsJoin]

/-- FRAME is held in full reset, STARTING and FORMING, and in a motion until its end with the row NONE, once its delay is over
(R54, R125). -/
theorem State.holdsFrame_iff (s : State) :
    s.holdsFrame = true ↔
      s.rstLow = true ∨ s.mode = .starting ∨ s.mode = .forming ∨
        ∃ m, s.motion = some m ∧ (m.steps ≠ m.distance ∨ m.row ≠ .none) ∧ s.frameDelay = none := by
  cases hm : s.motion with
  | none => simp [State.holdsFrame, hm, Mode.working_eq_false_iff]
  | some m =>
    have hunfinished : (!(m.atEnd && m.row == .none)) = true ↔ m.steps ≠ m.distance ∨ m.row ≠ .none := by
      rw [Bool.not_eq_true', Bool.and_eq_false_iff, Motion.atEnd_eq_false_iff, beq_eq_false_iff_ne]
    simp only [State.holdsFrame, hm, Bool.or_eq_true, Bool.and_eq_true, hunfinished, Bool.not_eq_true',
      Mode.working_eq_false_iff, Option.isNone_iff_eq_none, Option.some.injEq, exists_eq_left', or_assoc]

/-- PRDY is held exactly under R157's conditions. -/
theorem State.holdsPrdy_iff (s : State) :
    s.holdsPrdy = true ↔
      s.inputBuffer.length = 2 ∨ (s.strobe = .write ∧ s.inputBuffer ≠ []) ∨
        (s.mode = .starting ∨ s.mode = .forming ∨ s.mode = .stopped) ∨ (s.faults ≠ [] ∨ s.faultLow = true) ∨
        s.pinitLowSince ≠ none ∨ s.rstLow = true := by
  simp [State.holdsPrdy, ← State.faulted_iff, Option.isSome_iff_ne_none, or_assoc]

/-- FRAME is released in a working mode at a boundary, and at a motion's end with the row NONE (R54, R55, R56). -/
theorem State.holdsFrame_released {s : State} (hr : s.rstLow = false) (hw : s.mode.working = true)
    (h : ∀ m, s.motion = some m → m.steps = m.distance ∧ m.row = .none) : s.holdsFrame = false := by
  rw [← Bool.not_eq_true, State.holdsFrame_iff]
  rintro (hr' | hs | hf | ⟨m, hm, hd | hrow, -⟩)
  · simp [hr] at hr'
  · simp [hs, Mode.working] at hw
  · simp [hf, Mode.working] at hw
  · exact hd (h m hm).1
  · exact hrow (h m hm).2

/-- FRAME is released at a motion's end with the row NONE (R54, R55). -/
theorem State.holdsFrame_released_at_end {s : State} {m : Motion} (hr : s.rstLow = false) (hw : s.mode.working = true)
    (hm : s.motion = some m) (hd : m.steps = m.distance) (hrow : m.row = .none) : s.holdsFrame = false :=
  State.holdsFrame_released hr hw fun m' hm' => by
    obtain rfl : m = m' := Option.some.inj (hm.symm.trans hm')
    exact ⟨hd, hrow⟩

/-- A buffer given back moves no line (R75). -/
theorem State.freeOldestBuffer_holdsFrame (s : State) : s.freeOldestBuffer.holdsFrame = s.holdsFrame := by
  obtain ⟨-, e⟩ | ⟨c, rest, -, e⟩ := s.freeOldestBuffer_cases <;> rw [e]
  rfl

/-- The conclusion of a motion leaves the station at a boundary, with FRAME released and STEP held (R47, R56). -/
theorem State.conclude_lines {s : State} {m : Motion} (hm : s.motion = some m) (hr : s.rstLow = false)
    (hw : s.mode.working = true) :
    s.conclude.motion = none ∧ s.conclude.holdsFrame = false ∧ s.conclude.holdsStep = true := by
  obtain ⟨u, hu, hum, hur⟩ := State.conclude_drops_motion hm
  rw [hu]
  have hmotion : u.dropMotion.applyStops.motion = none := State.applyStops_motion rfl
  have hdrive : u.dropMotion.applyStops.stepDrive = .held := State.applyStops_stepDrive rfl
  have hrst : u.dropMotion.applyStops.rstLow = false := (State.applyStops_rstLow _).trans (hur.trans hr)
  have hworking : u.dropMotion.applyStops.mode.working = true :=
    State.applyStops_working (by rw [State.dropMotion_mode, hum, hw])
  exact ⟨hmotion, State.holdsFrame_released hrst hworking (by simp [hmotion]), by simp [State.holdsStep, hdrive]⟩

/-- The sensors read at a boundary leave the station at a boundary, in STOPPED, or faulted in a working mode (R145, R147). -/
theorem State.readSensors_of_boundary {s : State} (hm : s.motion = none) (hd : s.stepDrive = .held)
    (hs : s.mode = .stopped) :
    s.readSensors.motion = none ∧ s.readSensors.stepDrive = .held ∧ s.readSensors.rstLow = s.rstLow ∧
      s.readSensors.mode.working = true ∧ (s.readSensors.mode = .stopped ∨ s.readSensors.faulted = true) := by
  obtain ⟨t, ht, htm, htd, htr, hts⟩ : ∃ t : State, (if s.inputs.coverClosed then s else s.recordFault .coverOpen) = t ∧
      t.motion = none ∧ t.stepDrive = .held ∧ t.rstLow = s.rstLow ∧ t.mode = .stopped := by
    cases s.inputs.coverClosed <;> simp [hm, hd, hs]
  have hread : s.readSensors =
      if s.inputs.paperPresent then t else ({ t with stops := t.stops.add .paper } : State).applyStops := by
    rw [State.readSensors, ht, State.addStop, htm]
  rw [hread]
  split
  · exact ⟨htm, htd, htr, by rw [hts]; rfl, .inl hts⟩
  · exact ⟨State.applyStops_motion htm, State.applyStops_stepDrive htd, (State.applyStops_rstLow _).trans htr,
      State.applyStops_working (by show t.mode.working = true; rw [hts]; rfl), .inr (State.applyStops_faulted rfl)⟩

/-- The forming interval ends with JOIN and FRAME released, STEP and PRDY held (R47, R126, R157). -/
theorem State.readSensors_lines {s : State} (hm : s.motion = none) (hd : s.stepDrive = .held) (hs : s.mode = .stopped)
    (hr : s.rstLow = false) :
    s.readSensors.holdsJoin = false ∧ s.readSensors.holdsFrame = false ∧ s.readSensors.holdsStep = true ∧
      s.readSensors.holdsPrdy = true := by
  obtain ⟨htm, htd, htr, htw, hts⟩ := State.readSensors_of_boundary hm hd hs
  rw [hr] at htr
  refine ⟨?_, State.holdsFrame_released htr htw (by simp [htm]), by simp [State.holdsStep, htd], ?_⟩
  · rw [← Bool.not_eq_true, State.holdsJoin_iff]
    rintro (h | h)
    · simp [htr] at h
    · simp [h, Mode.working] at htw
  · rw [State.holdsPrdy_iff, ← State.faulted_iff]
    rcases hts with h | h
    · exact .inr (.inr (.inl (.inr (.inr h))))
    · exact .inr (.inr (.inr (.inl h)))

/-! ## The statements -/

/-- Settles O52: the conditions of a free station are `State.motionDue_iff`. -/
theorem freeStationStartsTheOldest : Obligations.FreeStationStartsTheOldest := by
  refine ⟨fun s h => ?_, fun s c rest a hm hf hl ho hs hq hc ha => ?_⟩
  · have hnot : s.motionDue = false := by
      rw [← Bool.not_eq_true, State.motionDue_iff, State.faulted_eq_false_iff]
      rintro ⟨hm, ⟨hf, hl⟩, ho, hs, c, rest, hq, hc, -⟩
      obtain h | h | h | h | h | h | ⟨c', rest', hq', hc'⟩ := h
      · exact h hm
      · exact h hf
      · simp [hl] at h
      · exact h ho
      · exact h hs
      · simp [hq] at h
      · rw [hq, List.cons.injEq] at hq'
        exact hc' (hq'.1 ▸ hc)
    exact congrArg Host.Outcome.next (State.startMotion_of_not_due hnot)
  · have hdue : s.motionDue = true :=
      s.motionDue_iff.2 ⟨hm, s.faulted_eq_false_iff.2 ⟨hf, hl⟩, ho, hs, c, rest, hq, hc, by simp [ha]⟩
    refine ⟨fun hb => ?_, fun hb => ?_⟩
    · show Host.Outcome.next s.startMotion = _
      rw [State.startMotion_of_clear hdue hq hb ha]
      cases a <;> rfl
    · show Host.Outcome.next s.startMotion = _
      rw [State.startMotion_of_blocked hdue hq hb, State.recordFault_of_boundary _ hm hf]

/-- Settles O53: the station takes no step, counts it, or has no step to take. -/
theorem stepCountsAndBringsTheRow : Obligations.StepCountsAndBringsTheRow := by
  refine ⟨fun s hq h => exec_step_of_no_step hq h, fun s hq hr hs => ⟨fun m hm hlt hfault => ?_, fun m hm hend => ?_,
    fun hm => ?_⟩⟩
  · have hf : s.faulted = s.faultLow := by
      rcases hfault with h | h <;> simp [State.faulted, h]
    rw [exec_step_of_stepping hq hr hs hm (Nat.ne_of_lt hlt), hf]
    simp [Motion.takeStep]
  · exact exec_step_of_not_stepping hq hr hs fun m' hm' => by
      rw [hm, Option.some.injEq] at hm'
      exact hm' ▸ hend
  · exact exec_step_of_not_stepping hq hr hs fun m' hm' => by simp [hm] at hm'

/-- Settles O54: a station concludes exactly where it waits at its end (`State.waiting_iff`). -/
theorem frameEventConcludes : Obligations.FrameEventConcludes := by
  refine fun s hq => ⟨fun m p hm hend hrow hf hl hp hb => ?_, fun h => ?_⟩
  · rw [exec_frameEvent_of_waiting hq (s.waiting_iff.2 ⟨m, hm, hend, hrow⟩) (s.faulted_eq_false_iff.2 ⟨hf, hl⟩),
      State.conclude_eq_concluded hm hp hl hb]
  · refine exec_frameEvent_of_not_waiting hq ?_
    rw [State.faulted_iff, ← Bool.not_eq_true, State.waiting_iff]
    obtain h | h | h | ⟨m, hm, h⟩ := h
    · exact .inl (.inl h)
    · exact .inl (.inr h)
    · exact .inr (by simp [h])
    · refine .inr ?_
      rintro ⟨m', hm', hend, hrow⟩
      obtain rfl : m = m' := Option.some.inj (hm.symm.trans hm')
      exact h.elim (· hend) (· hrow)

/-- Settles O55: the interval is `State.stepDue`, and `State.mayRelease_iff` says where it is waited for. -/
theorem stepIsPacedByItsInterval : Obligations.StepIsPacedByItsInterval := by
  refine fun s hq => ⟨fun r hd hr => exec_stepPulseEnd_of_pulse hq hd hr, fun m hm hne hrow hf hl hd => ?_,
    fun hd => exec_stepPulseEnd_of_no_pulse hq hd, fun h => ?_⟩
  · have hmay : s.mayRelease = true :=
      s.mayRelease_iff.2 ⟨s.faulted_eq_false_iff.2 ⟨hf, hl⟩, by simp [hd], m, hm, hne, hrow⟩
    rw [exec_stepRelease_of_mayRelease hq hmay, State.stepDue, Straps.printPeriod, Config.printPeriod_eq]
    cases s.stepRecord <;> rfl
  · refine exec_stepRelease_of_not_mayRelease hq ?_
    rw [← Bool.not_eq_true, State.mayRelease_iff]
    rintro ⟨hf, hd, m, hm, hne, hrow⟩
    obtain h | h | h | ⟨m', hm', h⟩ := h
    · simp [h] at hf
    · simp [h] at hm
    · exact hd h
    · obtain rfl : m = m' := Option.some.inj (hm.symm.trans hm')
      exact h.elim hne (· hrow)

/-- Settles O56: the two edges of a fire pulse. -/
theorem dueRowIsFiredInFull : Obligations.DueRowIsFiredInFull := by
  refine fun s m c rest x hq hm hc => ⟨fun hr hf hl => ?_, fun hr hf => exec_firePulseStart_of_faulted hq hm hr hf,
    fun hr => ?_⟩
  · rw [exec_firePulseStart_of_due hq hm hr (s.faulted_eq_false_iff.2 ⟨hf, hl⟩)]
    simp only [State.dueRow, hc]
    rfl
  · rw [exec_firePulseEnd_of_firing hq hm hr, Straps.fireWidth, Config.fireWidth_eq]
    by_cases h9 : m.steps = 9
    · simp only [h9, if_true, State.freeOldestBuffer, hc]
      rfl
    · simp only [h9, if_false]

/-- Settles O57: the delay of FRAME and the frame timer run out. -/
theorem frameHoldAndFrameTimer : Obligations.FrameHoldAndFrameTimer := by
  refine fun s x hq => ⟨fun m hd hm hlt => ?_, fun m hm ht hr => ?_⟩
  · exact ⟨_, exec_frameHoldDelay_of_delay hq hd, rfl,
      (State.holdsFrame_iff _).2 (.inr (.inr (.inr ⟨m, hm, .inl (Nat.ne_of_lt hlt), rfl⟩)))⟩
  · have hcut (now : Micros) : Motion.cut now { m with timer := .expired } = { m with timer := .expired } :=
      Motion.cut_of_still hr (by simp)
    rw [exec_frameTimerExpiry_of_running hq hm ht]
    simp [State.recordFault, State.cutoff, hcut]

/-- Settles O58: the conditions under which each line is held, and each event that releases one. -/
theorem linesAreHeldAndReleased : Obligations.LinesAreHeldAndReleased := by
  refine ⟨fun s => ⟨s.holdsJoin_iff, s.holdsFrame_iff, s.holdsPrdy_iff⟩, fun s hq hr => ⟨fun t0 h => ?_,
    fun t0 h hm hd => ?_, fun m hw hm hend hrow => ?_, fun m x hw hm hend hrow hdelay => ?_,
    fun m hw hm hend hrow hf hl => ?_, fun hs hf hl hb hp => ?_, fun hst hb hs hf hl hp => ?_⟩⟩
  · exact ⟨_, exec_startIntervalExpiry_of_running hq h, by simp [State.holdsJoin, hr],
      (State.holdsFrame_iff _).2 (.inr (.inr (.inl rfl)))⟩
  · exact ⟨_, exec_formingIntervalExpiry_of_running hq h, State.readSensors_lines hm hd rfl hr⟩
  · have hs : s.mode ≠ .starting := fun h => by simp [h, Mode.working] at hw
    exact ⟨_, exec_step_of_stepping hq hr hs hm (by omega),
      State.holdsFrame_released_at_end hr hw rfl hend (Motion.takeStep_row_of_past hrow)⟩
  · refine ⟨(State.holdsFrame_iff _).2 (.inr (.inr (.inr ⟨m, hm, .inr (by simp [hrow]), hdelay⟩))), _,
      exec_firePulseEnd_of_firing hq hm hrow, ?_⟩
    dsimp only
    split
    · rw [State.freeOldestBuffer_holdsFrame]
      exact State.holdsFrame_released_at_end hr hw rfl hend rfl
    · exact State.holdsFrame_released_at_end hr hw rfl hend rfl
  · exact ⟨_, exec_frameEvent_of_waiting hq (s.waiting_iff.2 ⟨m, hm, hend, hrow⟩) (s.faulted_eq_false_iff.2 ⟨hf, hl⟩),
      State.conclude_lines hm hr hw⟩
  · refine ⟨_, exec_kstart_of_working hq hr (by rw [hs]; rfl), s.holdsPrdy_iff.2 (.inr (.inr (.inl (.inr (.inr hs))))), ?_⟩
    simp [State.holdsPrdy, State.faulted, State.startKey, State.removeFaults, hs, hf, hl, hb, hp, hr]
  · have hb' : s.inputBuffer ≠ [] := List.ne_nil_of_length_pos (by omega)
    have ha : s.answers = true := by simp [State.answers, hr, hs, hp]
    refine ⟨_, exec_hold_of_held hq ha hs, s.holdsPrdy_iff.2 (.inr (.inl ⟨hst, hb'⟩)), ?_⟩
    simp [State.holdsPrdy, State.faulted, State.strobed, hb, hs, hf, hl, hp, hr]

end Sys2Proof.Machine
end

section
/-! The image buffers and the render (R67 to R74, R84): the buffer that a render takes, the dots of a glyph and of an image, and the
end of a render. Settles O59 and O60. -/

namespace Sys2Proof.Machine

/-! ## Render start -/

theorem State.freeBuffer_of_a_free {s : State} (h : s.bufA.holder = none) : s.freeBuffer = some .a := by
  simp [State.freeBuffer, h]

theorem State.freeBuffer_of_b_free {s : State} (hA : s.bufA.holder ≠ none) (hB : s.bufB.holder = none) :
    s.freeBuffer = some .b := by
  simp [State.freeBuffer, hA, hB]

theorem State.freeBuffer_of_none_free {s : State} (hA : s.bufA.holder ≠ none) (hB : s.bufB.holder ≠ none) :
    s.freeBuffer = none := by
  simp [State.freeBuffer, hA, hB]

/-- Without a free buffer no render starts (R69). -/
theorem State.startRender_of_none_free {s : State} (h : s.freeBuffer = none) : s.startRender = s :=
  s.startRender_of_not_due (by simp [State.renderDue, h])

/-- The oldest CLOSED composite takes the free buffer, with its dots off (R69, R70). -/
theorem State.startRender_of_closed {s : State} {pre post : List Composite} {c : Composite} {buf : Buf}
    (hr : s.render = none) (hb : s.freeBuffer = some buf) (hq : s.queue = pre ++ c :: post)
    (hpre : ∀ x ∈ pre, x.state ≠ .closed) (hc : c.state = .closed) :
    s.startRender =
      { s with
        queue := pre ++ { c with state := .rendering, buffer := some buf } :: post
        bufA := if buf = .a then { holder := some c.seq, image := blankImage } else s.bufA
        bufB := if buf = .b then { holder := some c.seq, image := blankImage } else s.bufB
        render := some
          { seq := c.seq, buffer := buf, duration := Config.renderPerLayer * c.layers.length, start := s.clock } } := by
  have before : ∀ x ∈ pre, (x.state == .closed) = false := by simpa using hpre
  have found : (c.state == .closed) = true := by simp [hc]
  have due : s.renderDue = true := by simp [State.renderDue, hr, hb, hq, hc]
  rw [State.startRender, if_pos due, hb, hq, find?_append_first before found]
  dsimp only
  rw [updateFirst_append before found]

/-! ## The dots of a glyph -/

/-- Glyph 0 is blank (R84). -/
@[simp] theorem glyphRow_blank (l : List Glyph) (r : Nat) : glyphRow l 0 r = 0 := rfl

/-- Glyph 95 is solid (R84). -/
theorem glyphRow_solid (l : List Glyph) (r : Nat) : glyphRow l 95 r = 0xFF := rfl

/-- The underscore's dots are in row 8 (R84, log 2). -/
theorem glyphRow_underscore (l : List Glyph) (r : Nat) :
    glyphRow l 63 r = if r = 8 then BitVec.ofNat 8 (Config.underscoreDots.val + 1) else 0 := rfl

/-- The underscore has a dot: its byte of dots is one more than a number below 255. -/
theorem underscore_dots_ne_zero (d : Fin 255) : BitVec.ofNat 8 (d.val + 1) ≠ 0 := by
  intro h
  have := congrArg BitVec.toNat h
  rw [BitVec.toNat_ofNat, Nat.mod_eq_of_lt (by omega)] at this
  exact absurd this (Nat.succ_ne_zero _)

/-- A loadable glyph has the rows in the store (R84). -/
theorem glyphRow_loadable (l : List Glyph) {x : BitVec 7} (r : Nat) (h : 96 ≤ x.toNat) :
    glyphRow l x r = (l.getD (x.toNat - 96) []).getD r 0 := by
  unfold glyphRow
  rw [if_neg (by omega), if_neg (by omega), if_neg (by omega), if_neg (by omega)]

/-- A fixed glyph has the same dots whatever is loaded (R84). -/
theorem glyphRow_fixed (l l' : List Glyph) {x : BitVec 7} (r : Nat) (h : x.toNat < 96) : glyphRow l x r = glyphRow l' x r := by
  unfold glyphRow
  by_cases h95 : x.toNat = 95
  · rw [if_neg (by omega), if_neg (by omega), if_neg (by omega), if_pos h95, if_neg (by omega), if_neg (by omega),
      if_neg (by omega), if_pos h95]
  · have h94 : x.toNat ≤ 94 := by omega
    simp only [if_pos h94]

/-- A figure ends at row 7 (R84). -/
theorem glyphRow_figure (l : List Glyph) {x : BitVec 7} (h1 : 16 ≤ x.toNat) (h2 : x.toNat ≤ 25) : glyphRow l x 8 = 0 := by
  have figure : endsAtRowSeven x.toNat = true := by simp [endsAtRowSeven, h1, h2]
  unfold glyphRow
  rw [if_neg (by omega), if_neg (by omega), if_pos (by omega), if_pos ⟨rfl, figure⟩]

/-- LOAD GLYPH gives its glyph the stored rows (R96). -/
theorem glyphRow_set_same {l : List Glyph} {g : Nat} (rows : Glyph) (r : Nat) (h1 : 96 ≤ g) (h2 : g ≤ 127)
    (hl : l.length = 32) : glyphRow (l.set (g - 96) rows) (BitVec.ofNat 7 g) r = rows.getD r 0 := by
  have hg : (BitVec.ofNat 7 g).toNat = g := by rw [BitVec.toNat_ofNat]; omega
  have stored : (l.set (g - 96) rows).getD (g - 96) [] = rows := by
    rw [List.getD_eq_getElem?_getD, List.getElem?_set_self (by omega), Option.getD_some]
  rw [glyphRow_loadable _ _ (by omega), hg, stored]

/-- LOAD GLYPH leaves every other glyph (R96). -/
theorem glyphRow_set_other {l : List Glyph} {g : Nat} {x : BitVec 7} (rows : Glyph) (r : Nat) (h1 : 96 ≤ g)
    (hx : x.toNat ≠ g) : glyphRow (l.set (g - 96) rows) x r = glyphRow l x r := by
  by_cases h : 96 ≤ x.toNat
  · have kept : (l.set (g - 96) rows).getD (x.toNat - 96) [] = l.getD (x.toNat - 96) [] := by
      rw [List.getD_eq_getElem?_getD, List.getElem?_set_ne (by omega), List.getD_eq_getElem?_getD]
    rw [glyphRow_loadable _ _ h, glyphRow_loadable _ _ h, kept]
  · exact glyphRow_fixed _ _ _ (by omega)

/-- Within a list of one value stands that value, and beyond it the default. -/
theorem getD_replicate_eq_ite {α : Type} (a d : α) (n i : Nat) :
    (List.replicate n a).getD i d = if i < n then a else d := by
  rw [List.getD_eq_getElem?_getD, List.getElem?_replicate]
  split
  · exact Option.getD_some
  · exact Option.getD_none

/-- No glyph is loaded at reset (R84). -/
theorem glyphRow_reset {x : BitVec 7} (r : Nat) (h : 96 ≤ x.toNat) : glyphRow State.reset.loadable x r = 0 := by
  have hx := x.isLt
  have unloaded : State.reset.loadable.getD (x.toNat - 96) [] = List.replicate 9 0 :=
    (getD_replicate_eq_ite _ _ _ _).trans (if_pos (by omega))
  rw [glyphRow_loadable _ _ h, unloaded, getD_replicate_eq_ite, ite_self]

/-! ## The dots of an image -/

/-- BLANK and UNPRINTABLE render as no dot (R71). -/
theorem glyphRow_rendered (l : List Glyph) (c : Cell) (r d : Nat) :
    (glyphRow l c.rendered r).getLsbD d =
      match c with
      | .glyph g => (glyphRow l g r).getLsbD d
      | .blank => false
      | .unprintable => false := by
  cases c with
  | glyph g => rfl
  | blank | unprintable => exact BitVec.getLsbD_zero

theorem renderImage_length (l : List Glyph) (w : Nat) (ls : List Layer) : (renderImage l w ls).length = 9 := by
  rw [renderImage, List.length_map, List.length_range]

/-- A dot of an image is on within the station's columns where a layer's glyph has it (R67, R71). -/
theorem renderImage_dot (l : List Glyph) (w : Nat) (ls : List Layer) {r e : Nat} (hr : r < 9) (he : e < 256) :
    ((renderImage l w ls).getD r []).getD e false = (decide (e < 8 * w) && dotOn l ls r e) := by
  simp [renderImage, imageRow, hr, he]

/-! ## Render completion -/

/-- The end of a render: the oldest RENDERING composite is READY and its image is in the buffer (R71, R72). -/
theorem State.completeRender_of_rendering {s : State} {pre post : List Composite} {c : Composite} (r : RenderRecord)
    (hq : s.queue = pre ++ c :: post) (hpre : ∀ x ∈ pre, x.state ≠ .rendering) (hc : c.state = .rendering) :
    s.completeRender r =
      { s with
        queue := pre ++ { c with state := .ready } :: post
        bufA := if r.buffer = .a then { s.bufA with image := renderImage s.loadable s.straps.effective c.layers } else s.bufA
        bufB := if r.buffer = .b then { s.bufB with image := renderImage s.loadable s.straps.effective c.layers } else s.bufB
        render := none } := by
  have before : ∀ x ∈ pre, (x.state == .rendering) = false := by simpa using hpre
  have found : (c.state == .rendering) = true := by simp [hc]
  rw [State.completeRender, hq, find?_append_first before found]
  dsimp only
  rw [updateFirst_append before found]

/-- The command, at a station with nothing due (R72). -/
theorem exec_renderCompletion_of_render {s : State} {r : RenderRecord} (hq : s.quiet = true) (hr : s.render = some r) :
    exec .renderCompletion s = .next ((s.waitUntil (r.start + r.duration)).completeRender r) := by
  show execRenderCompletion s = _
  unfold execRenderCompletion
  rw [State.catchUp_of_quiet hq]
  simp only [hr]

/-! ## The statements -/

/-- Settles O60: the glyphs by their numbers, and the image of `renderImage` dot by dot. -/
theorem renderedImageIsTheUnionOfItsLayers : Obligations.RenderedImageIsTheUnionOfItsLayers := by
  refine ⟨fun l row => ⟨glyphRow_blank l row, glyphRow_solid l row⟩,
    fun l g rows row h1 h2 hl => ⟨glyphRow_set_same rows row h1 h2 hl, fun x hx => glyphRow_set_other rows row h1 hx⟩,
    fun x row h => glyphRow_reset row h, fun l x h1 h2 => glyphRow_figure l h1 h2,
    fun l => ⟨?_, fun row h => ?_⟩, fun s r pre post c hquiet hr hq hpre hc => ?_⟩
  · rw [glyphRow_underscore, if_pos rfl]
    exact underscore_dots_ne_zero _
  · rw [glyphRow_underscore, if_neg (by omega)]
  · refine ⟨renderImage s.loadable s.straps.effective c.layers, renderImage_length _ _ _, fun row e hrow he => ?_, ?_⟩
    · rw [renderImage_dot _ _ _ hrow he]
      exact congrArg (_ && c.layers.any ·) (funext fun layer => glyphRow_rendered _ (layer.getD (e / 8) .blank) _ _)
    · rw [exec_renderCompletion_of_render hquiet hr]
      exact congrArg Host.Outcome.next
        (State.completeRender_of_rendering (s := s.waitUntil (r.start + r.duration)) r hq hpre hc)

/-- Settles O59: the buffer that is free, and the render that starts into it. -/
theorem renderTakesTheOldestClosed : Obligations.RenderTakesTheOldestClosed := by
  intro s pre post c hr hq hpre hc
  refine ⟨fun hA => ?_, fun hA hB => ?_, fun hA hB => ?_⟩
  · exact congrArg Host.Outcome.next (State.startRender_of_closed hr (State.freeBuffer_of_a_free hA) hq hpre hc)
  · exact congrArg Host.Outcome.next (State.startRender_of_closed hr (State.freeBuffer_of_b_free hA hB) hq hpre hc)
  · exact congrArg Host.Outcome.next (State.startRender_of_none_free (State.freeBuffer_of_none_free hA hB))

end Sys2Proof.Machine
end

section
/-! The sizes of the stores and of the input buffer (R67, R82, R84, R155): what each operation and each command keeps of them. Settles
O10. -/

namespace Sys2Proof.Machine

/-! ## The sizes kept -/

/-- The code table, the loadable glyphs and the two images have their sizes (R67, R82, R84). -/
def State.storesSized (s : State) : Prop :=
  s.codeTable.length = 256 ∧ s.loadable.length = 32 ∧ s.bufA.image.length = 9 ∧ s.bufB.image.length = 9

/-- From `s` to `t` the stores keep their sizes, and the input buffer its bound of two bytes. -/
def State.keepsSizes (s t : State) : Prop :=
  (s.storesSized → t.storesSized) ∧ (s.inputBuffer.length ≤ 2 → t.inputBuffer.length ≤ 2)

theorem State.keepsSizes.refl (s : State) : s.keepsSizes s := ⟨id, id⟩

/-- An update that leaves the stores, the images and the input buffer alone keeps the sizes. -/
theorem State.keepsSizes.same {s t : State}
    (h : (t.codeTable, t.loadable, t.bufA.image, t.bufB.image, t.inputBuffer) =
      (s.codeTable, s.loadable, s.bufA.image, s.bufB.image, s.inputBuffer)) : s.keepsSizes t := by
  simp only [Prod.mk.injEq] at h
  obtain ⟨hc, hl, hA, hB, hi⟩ := h
  simp only [State.keepsSizes, State.storesSized, hc, hl, hA, hB, hi]
  exact ⟨id, id⟩

theorem State.keepsSizes.trans {s t u : State} (h : s.keepsSizes t) (g : t.keepsSizes u) : s.keepsSizes u :=
  ⟨g.1 ∘ h.1, g.2 ∘ h.2⟩

/-- The last operation first: its argument is read off the state it leads to. -/
theorem State.keepsSizes.after {s t u : State} (g : t.keepsSizes u) (h : s.keepsSizes t) : s.keepsSizes u := h.trans g

theorem State.keepsSizes.ite {s t u : State} {c : Prop} [Decidable c] (h : s.keepsSizes t) (g : s.keepsSizes u) :
    s.keepsSizes (if c then t else u) := by
  split
  · exact h
  · exact g

/-! ## The shared operations -/

theorem State.departOldest_keepsSizes (s : State) : s.keepsSizes s.departOldest := by
  obtain ⟨-, h⟩ | ⟨c, rest, -, h⟩ := s.departOldest_cases <;> rw [h]
  · exact .same rfl
  · exact .same (by simp)

theorem State.freeOldestBuffer_keepsSizes (s : State) : s.keepsSizes s.freeOldestBuffer := by
  obtain ⟨-, h⟩ | ⟨c, rest, -, h⟩ := s.freeOldestBuffer_cases <;> rw [h]
  · exact .same rfl
  · exact .same (by simp)

theorem State.withdraw_keepsSizes (s : State) : s.keepsSizes s.withdraw := by
  cases hm : s.motion with
  | none => simpa [State.withdraw, hm] using State.keepsSizes.refl s
  | some m => rw [State.withdraw_of_motion hm]; exact .same rfl

theorem State.applyStops_keepsSizes (s : State) : s.keepsSizes s.applyStops := by
  rw [State.applyStops_eq]
  exact .ite (.same rfl) (.same rfl)

theorem State.addStop_keepsSizes (s : State) (t : Stop) : s.keepsSizes (s.addStop t) := by
  obtain ⟨-, h⟩ | ⟨m, -, -, h⟩ | ⟨m, -, -, h⟩ := s.addStop_cases t <;> rw [h]
  · exact .after (State.applyStops_keepsSizes _) (.same rfl)
  · exact .after (State.applyStops_keepsSizes _) (.after (State.withdraw_keepsSizes _) (.same rfl))
  · exact .same rfl

theorem State.applyPlan_keepsSizes (s : State) : s.keepsSizes s.applyPlan := by
  unfold State.applyPlan
  split <;> exact .same rfl

theorem State.conclude_keepsSizes (s : State) : s.keepsSizes s.conclude := by
  cases hm : s.motion with
  | none => simpa [State.conclude, hm] using State.keepsSizes.refl s
  | some m =>
    rw [State.conclude_of_motion hm]
    have h : s.keepsSizes (if m.feed then s.applyPlan else s.applyPlan.departOldest) :=
      .ite s.applyPlan_keepsSizes (s.applyPlan_keepsSizes.trans (State.departOldest_keepsSizes _))
    exact .after (State.applyStops_keepsSizes _) (h.trans (.same rfl))

theorem State.abandonMotion_keepsSizes (s : State) : s.keepsSizes s.abandonMotion := by
  cases hm : s.motion with
  | none => rw [State.abandonMotion_of_boundary hm]; exact .same rfl
  | some m =>
    rw [State.abandonMotion_of_motion hm]
    have h : s.keepsSizes (if m.feed then s else s.departOldest) := .ite (.same rfl) s.departOldest_keepsSizes
    exact h.trans (.same rfl)

theorem State.abandonInput_keepsSizes (s : State) : s.keepsSizes s.abandonInput := ⟨id, fun _ => Nat.zero_le 2⟩

/-- A buffer that is freed or renumbered keeps its image. -/
theorem State.removeComposites_keepsSizes (s : State) (fires : Bool) : s.keepsSizes (s.removeComposites fires) := by
  obtain ⟨-, h⟩ | ⟨m, -, -, h⟩ | ⟨m, -, -, -, h⟩ | ⟨m, c, rest, -, -, -, -, h⟩ := s.removeComposites_cases fires <;> rw [h]
  · exact .same rfl
  · exact .same rfl
  · exact .same rfl
  · exact .ite (.same rfl) (.same rfl)

theorem State.breakBar_keepsSizes (s : State) : s.keepsSizes s.breakBar := by
  unfold State.breakBar
  have h : s.keepsSizes s.dropMotion.abandonInput := .after (State.abandonInput_keepsSizes _) (.same rfl)
  split <;> exact .ite (h.trans (.same rfl)) (h.trans (.same rfl))

/-! ## The parser -/

theorem State.raiseAll_keepsSizes (s : State) (ws : List Warning) : s.keepsSizes (s.raiseAll ws) := by
  rw [State.raiseAll_eq]
  exact .same rfl

theorem State.offerLayer_keepsSizes (s : State) (l : Layer) (m : Mark) (b : Bool) : s.keepsSizes (s.offerLayer l m b) := by
  unfold State.offerLayer
  split
  · exact .after (State.raiseAll_keepsSizes _ _) (.same rfl)
  · exact .same rfl

theorem State.finishPrint_keepsSizes (s : State) (o : RecordOrder) (b : Bool) : s.keepsSizes (s.finishPrint o b) := by
  unfold State.finishPrint
  refine (s.offerLayer_keepsSizes (s.parser.layer.getD (.fresh s.straps.effective)).complete
    (s.parser.layer.getD (.fresh s.straps.effective)).mark b).trans ?_
  cases lineAction o <;> exact .same rfl

theorem State.finishForm_keepsSizes (s : State) : s.keepsSizes s.finishForm := by
  unfold State.finishForm
  split <;> exact .same rfl

/-- Codes are replaced within the table (R93). -/
theorem State.finishCodes_keepsSizes (s : State) : s.keepsSizes s.finishCodes := by
  unfold State.finishCodes
  split
  · exact .ite ⟨fun h => by simpa [State.storesSized, State.clearParser, installCodes] using h, id⟩ (.same rfl)
  · exact .same rfl

/-- A glyph is replaced within the store (R96). -/
theorem State.finishGlyph_keepsSizes (s : State) : s.keepsSizes s.finishGlyph := by
  unfold State.finishGlyph
  split
  · exact .ite ⟨fun h => by simpa [State.storesSized, State.clearParser, installGlyph] using h, id⟩ (.same rfl)
  · exact .same rfl

theorem State.finishRecord_keepsSizes (s : State) (o : RecordOrder) : s.keepsSizes (s.finishRecord o) := by
  cases o with
  | printSpace k => exact s.finishPrint_keepsSizes (.printSpace k) false
  | printSkip c => exact s.finishPrint_keepsSizes (.printSkip c) false
  | loadForm => exact s.finishForm_keepsSizes
  | loadCodes => exact s.finishCodes_keepsSizes
  | loadGlyph => exact s.finishGlyph_keepsSizes
  | moveSpace | moveSkip | checkBlank | checkBlock => exact .same rfl

theorem State.withRemaining_keepsSizes (s : State) (o : RecordOrder) (n : Nat) : s.keepsSizes (s.withRemaining o n) :=
  .ite (.after (State.finishRecord_keepsSizes _ o) (.same rfl)) (.same rfl)

theorem State.printByte_keepsSizes (s : State) (v : Byte) : s.keepsSizes (s.printByte v) :=
  .ite (.same rfl) (.ite (.same rfl) (.ite (.same rfl) (.same rfl)))

/-- A body byte changes the parser's record, and its last one ends it. -/
theorem State.bodyByte_keepsSizes (s : State) (o : RecordOrder) (v : Byte) : s.keepsSizes (s.bodyByte o v) := by
  have counted (p : Parser) (n : Nat) : s.keepsSizes (({ s with parser := p } : State).withRemaining o n) :=
    .after (State.withRemaining_keepsSizes _ o n) (.same rfl)
  unfold State.bodyByte
  cases o <;> simp only
  case printSpace | printSkip =>
    split
    · exact counted _ _
    · exact (s.printByte_keepsSizes v).trans (State.withRemaining_keepsSizes _ _ _)
  case loadForm | loadCodes =>
    split
    · exact .same rfl
    · exact counted _ _
    · exact counted _ _
  case loadGlyph => exact counted _ _
  case moveSpace | moveSkip | checkBlank | checkBlock => exact .same rfl

theorem State.takeLine_keepsSizes (s : State) (o : RecordOrder) : s.keepsSizes (s.takeLine o) := by
  refine .ite (.same rfl) ?_
  split <;> exact .same rfl

theorem State.lineOrder_keepsSizes (s : State) (o : RecordOrder) : s.keepsSizes (s.lineOrder o) :=
  .ite (s.takeLine_keepsSizes o) (.ite (.after (State.takeLine_keepsSizes _ o) (.same rfl)) (.same rfl))

theorem State.drainOrder_keepsSizes (s : State) (o : RecordOrder) : s.keepsSizes (s.drainOrder o) :=
  .ite (.same rfl) (.same rfl)

theorem State.startRecord_keepsSizes (s : State) (o : RecordOrder) : s.keepsSizes (s.startRecord o) := by
  cases o with
  | printSpace | printSkip | moveSpace | moveSkip => exact s.lineOrder_keepsSizes _
  | loadForm | loadGlyph => exact s.drainOrder_keepsSizes _
  | loadCodes | checkBlank | checkBlock => exact .same rfl

theorem State.endShort_keepsSizes (s : State) : s.keepsSizes s.endShort := by
  unfold State.endShort
  split
  · exact .ite (s.finishPrint_keepsSizes _ _) (.same rfl)
  · exact .same rfl

theorem State.takeOrder_keepsSizes (s : State) (v : Byte) : s.keepsSizes (s.takeOrder v) := by
  have h : s.keepsSizes (match s.parser.state with | .body | .awaitDrain => s.endShort | _ => s) := by
    split
    · exact s.endShort_keepsSizes
    · exact s.endShort_keepsSizes
    · exact .same rfl
  unfold State.takeOrder
  cases decodeRecordOrder v with
  | some o => exact h.trans (State.startRecord_keepsSizes _ o)
  | none => exact h.trans (.same rfl)

theorem State.takeData_keepsSizes (s : State) (v : Byte) : s.keepsSizes (s.takeData v) := by
  unfold State.takeData
  split
  · exact s.bodyByte_keepsSizes _ v
  · exact .same rfl

/-- A byte that the parser takes leaves the input buffer (R99). -/
theorem State.runParser_keepsSizes (n : Nat) (s : State) : s.keepsSizes (s.runParser n) := by
  induction n generalizing s with
  | zero => exact .same rfl
  | succ n ih =>
    unfold State.runParser
    cases hb : s.inputBuffer with
    | nil => exact .same rfl
    | cons b rest =>
      have taken : s.keepsSizes { s with inputBuffer := rest } :=
        ⟨id, fun h => by rw [hb, List.length_cons] at h; exact Nat.le_of_succ_le h⟩
      refine .ite (taken.trans ?_) (.same rfl)
      exact State.keepsSizes.trans (.ite (State.takeOrder_keepsSizes _ _) (State.takeData_keepsSizes _ _)) (ih _)

theorem State.parse_keepsSizes (s : State) : s.keepsSizes s.parse := s.runParser_keepsSizes _

/-- A byte joins the input buffer only where it holds fewer than two (R155, R156). -/
theorem State.receive_keepsSizes (s : State) (b : PortByte) : s.keepsSizes (s.receive b) := by
  unfold State.receive
  split
  next h =>
    have joined : s.keepsSizes { s with inputBuffer := s.inputBuffer ++ [b] } :=
      ⟨id, fun _ => by rw [List.length_append]; exact h⟩
    exact joined.trans (State.parse_keepsSizes _)
  next => exact .same rfl

theorem State.strobeRecord_keepsSizes (s : State) (b : PortByte) : s.keepsSizes (s.strobeRecord b) :=
  .ite (.after (State.receive_keepsSizes _ b) (.same rfl)) (.same rfl)

/-! ## The steps due -/

theorem State.grantPlace_keepsSizes (s : State) : s.keepsSizes s.grantPlace := by
  obtain h | ⟨o, -, -, -, -, h⟩ := s.grantPlace_cases <;> rw [h]
  · exact .same rfl
  · exact (s.lineOrder_keepsSizes o).trans (s.lineOrder o).parse_keepsSizes

theorem State.endDrain_keepsSizes (s : State) : s.keepsSizes s.endDrain := by
  obtain h | ⟨o, -, -, -, h⟩ := s.endDrain_cases <;> rw [h]
  · exact .same rfl
  · exact .after (State.parse_keepsSizes _) (.same rfl)

theorem State.storesSized.bufA {s : State} {b : ImageBuffer} (h : s.storesSized) (hb : b.image.length = 9) :
    ({ s with bufA := b } : State).storesSized := by
  obtain ⟨hc, hl, -, hB⟩ := h
  exact ⟨hc, hl, hb, hB⟩

theorem State.storesSized.bufB {s : State} {b : ImageBuffer} (h : s.storesSized) (hb : b.image.length = 9) :
    ({ s with bufB := b } : State).storesSized := by
  obtain ⟨hc, hl, hA, -⟩ := h
  exact ⟨hc, hl, hA, hb⟩

/-- The buffer that a render takes has nine rows off (R70). -/
theorem State.startRender_keepsSizes (s : State) : s.keepsSizes s.startRender := by
  obtain h | ⟨buf, c, -, -, -, h⟩ := s.startRender_cases <;> rw [h]
  · exact .same rfl
  · refine ⟨fun hs => ?_, id⟩
    cases buf with
    | a => exact hs.bufA (b := { holder := some c.seq, image := blankImage }) List.length_replicate
    | b => exact hs.bufB (b := { holder := some c.seq, image := blankImage }) List.length_replicate

theorem State.startMotion_keepsSizes (s : State) : s.keepsSizes s.startMotion := by
  obtain h | ⟨c, rest, a, -, -, -, -, -, -, -, ⟨-, h⟩ | ⟨-, h⟩⟩ := s.startMotion_cases <;> rw [h] <;> exact .same rfl

theorem State.catchUp_keepsSizes (s : State) : s.keepsSizes s.catchUp :=
  State.keepsSizes.trans (t := s.releaseKeys.settle)
    (s.releaseKeys.grantPlace_keepsSizes.trans <| (State.endDrain_keepsSizes _).trans <|
      (State.startRender_keepsSizes _).trans (State.startMotion_keepsSizes _))
    (.same rfl)

theorem State.tick_keepsSizes (s : State) : s.keepsSizes s.tick :=
  s.catchUp_keepsSizes.trans (.ite (.same rfl) (.same rfl))

/-! ## The commands -/

/-- The port reset keeps the images (R20). -/
theorem State.portReset_keepsSizes (s : State) : s.keepsSizes s.portReset :=
  ((s.removeComposites_keepsSizes true).trans (State.abandonInput_keepsSizes _)).trans (.same rfl)

/-- The image of a render has nine rows (R71). -/
theorem State.completeRender_keepsSizes (s : State) (r : RenderRecord) : s.keepsSizes (s.completeRender r) := by
  unfold State.completeRender
  refine ⟨fun hs => ?_, id⟩
  cases r.buffer with
  | a => exact hs.bufA (b := { s.bufA with image := renderImage _ _ _ }) (renderImage_length _ _ _)
  | b => exact hs.bufB (b := { s.bufB with image := renderImage _ _ _ }) (renderImage_length _ _ _)

theorem State.holdOrder_keepsSizes (s : State) : s.keepsSizes s.holdOrder := .ite (s.addStop_keepsSizes _) (.same rfl)

theorem State.discardOrder_keepsSizes (s : State) : s.keepsSizes s.discardOrder := by
  have h : s.keepsSizes ((s.removeComposites false).abandonInput.removeFaults discardClears) :=
    ((s.removeComposites_keepsSizes false).trans (State.abandonInput_keepsSizes _)).trans (.same rfl)
  exact .ite (h.trans (State.addStop_keepsSizes _ _)) h

/-- A control order keeps the sizes where both its effects do. -/
theorem strobeControl_keepsSizes {forming acts : State → State} (hf : ∀ s : State, s.keepsSizes (forming s))
    (ha : ∀ s : State, s.keepsSizes (acts s)) (s : State) : s.keepsSizes (strobeControl forming acts s) := by
  have h : s.keepsSizes s.catchUp.writeRise := s.catchUp_keepsSizes
  exact .ite (.ite (h.trans (ha _)) (h.trans (hf _))) h

theorem controlStrobe_keepsSizes (c : ControlOrder) (s : State) : s.keepsSizes (controlStrobe c s) := by
  cases c with
  | hold => exact strobeControl_keepsSizes State.keepsSizes.refl State.holdOrder_keepsSizes s
  | discard =>
    exact strobeControl_keepsSizes (forming := State.removeFaults discardClears) State.keepsSizes.refl
      State.discardOrder_keepsSizes s
  | resume => exact strobeControl_keepsSizes (acts := State.resumeOrder) State.keepsSizes.refl State.keepsSizes.refl s
  | sense =>
    exact strobeControl_keepsSizes (forming := State.senseOrder) (acts := State.senseOrder) State.keepsSizes.refl
      State.keepsSizes.refl s

theorem strobeOrder_keepsSizes (v : Byte) (s : State) : s.keepsSizes (strobeOrder v s) := by
  unfold strobeOrder
  split
  · exact controlStrobe_keepsSizes _ s
  · exact s.catchUp_keepsSizes.trans (State.strobeRecord_keepsSizes _ _)

theorem State.readSensors_keepsSizes (s : State) : s.keepsSizes s.readSensors := by
  have h : s.keepsSizes (if s.inputs.coverClosed then s else s.recordFault .coverOpen) := .ite (.same rfl) (.same rfl)
  exact .ite h (h.trans (State.addStop_keepsSizes _ _))

theorem State.stopKey_keepsSizes (s : State) : s.keepsSizes s.stopKey := by
  unfold State.stopKey State.stopFeed
  split
  · exact s.addStop_keepsSizes _
  · exact .same rfl
  · split
    · exact .ite s.withdraw_keepsSizes (.same rfl)
    · exact .same rfl
  · exact .same rfl
  · exact .same rfl

/-- An outcome that keeps the sizes of `s` wherever it is a next state. -/
def State.answersSized (s : State) (o : Host.Outcome State Fault Refusal) : Prop := ∀ t, o = .next t → s.keepsSizes t

theorem State.answersSized.next {s t : State} (h : s.keepsSizes t) : s.answersSized (.next t) := by
  rintro _ ⟨⟩
  exact h

theorem State.answersSized.ite {s : State} {c : Prop} [Decidable c] {o o' : Host.Outcome State Fault Refusal}
    (h : s.answersSized o) (g : s.answersSized o') : s.answersSized (if c then o else o') := by
  split
  · exact h
  · exact g

/-- What an event does, it does after the steps due (log 5). -/
theorem State.answersSized.ofCatchUp {s : State} {o : Host.Outcome State Fault Refusal} (h : s.catchUp.answersSized o) :
    s.answersSized o := fun t ht => s.catchUp_keepsSizes.trans (h t ht)

theorem execArbitrationRead_sized (p : Peers) (s : State) : s.answersSized (execArbitrationRead p s) := by
  refine .ofCatchUp ?_
  unfold execArbitrationRead
  dsimp only
  split
  · exact .ite (.next (.same rfl)) (.next (.same rfl))
  · exact .next (.same rfl)

theorem execSenseRecordRead_sized (s : State) : s.answersSized (execSenseRecordRead s) := by
  refine .ofCatchUp ?_
  unfold execSenseRecordRead
  dsimp only
  split
  · exact .ite (.next (.ite (.same rfl) (.same rfl))) (.next (.same rfl))
  · exact .next (.same rfl)

theorem execPstrFall_sized (dir : StrobeDir) (s : State) : s.answersSized (execPstrFall dir s) := by
  refine .ofCatchUp ?_
  cases dir <;> exact .next (.same rfl)

@[simp] theorem defaultCodeTable_length : defaultCodeTable.length = 256 := by
  rw [defaultCodeTable, List.length_map, List.length_range]

theorem execFullReset_sized (s : State) : s.answersSized (execFullReset s) := by
  have reset : State.reset.storesSized := ⟨defaultCodeTable_length, rfl, rfl, rfl⟩
  exact .next ⟨fun _ => reset, fun _ => Nat.zero_le 2⟩

theorem execStartIntervalExpiry_sized (s : State) : s.answersSized (execStartIntervalExpiry s) := by
  refine .ofCatchUp ?_
  unfold execStartIntervalExpiry
  dsimp only
  split <;> exact .next (.same rfl)

theorem execFormingIntervalExpiry_sized (s : State) : s.answersSized (execFormingIntervalExpiry s) := by
  refine .ofCatchUp ?_
  unfold execFormingIntervalExpiry
  dsimp only
  split
  · exact .next (.after (State.readSensors_keepsSizes _) (.same rfl))
  · exact .next (.same rfl)

theorem execStep_sized (s : State) : s.answersSized (execStep s) := by
  refine .ofCatchUp ?_
  unfold execStep
  refine .ite (.next (.same rfl)) ?_
  split
  · exact .ite (.next (.same rfl)) (.next (.same rfl))
  · exact .next (.same rfl)

theorem execStepPulseEnd_sized (s : State) : s.answersSized (execStepPulseEnd s) := by
  refine .ofCatchUp ?_
  unfold execStepPulseEnd
  dsimp only
  split <;> exact .next (.same rfl)

theorem execFirePulseStart_sized (s : State) : s.answersSized (execFirePulseStart s) := by
  refine .ofCatchUp ?_
  unfold execFirePulseStart
  dsimp only
  split
  · split
    · exact .ite (.next (.same rfl)) (.next (.same rfl))
    · exact .next (.same rfl)
  · exact .next (.same rfl)

theorem execFirePulseEnd_sized (s : State) : s.answersSized (execFirePulseEnd s) := by
  refine .ofCatchUp ?_
  unfold execFirePulseEnd
  dsimp only
  split
  · split
    · exact .next (.ite (.after (State.freeOldestBuffer_keepsSizes _) (.same rfl)) (.same rfl))
    · exact .next (.same rfl)
  · exact .next (.same rfl)

theorem execFrameHoldDelay_sized (s : State) : s.answersSized (execFrameHoldDelay s) := by
  refine .ofCatchUp ?_
  unfold execFrameHoldDelay
  dsimp only
  split <;> exact .next (.same rfl)

theorem execFrameTimerExpiry_sized (s : State) : s.answersSized (execFrameTimerExpiry s) := by
  refine .ofCatchUp ?_
  unfold execFrameTimerExpiry
  dsimp only
  split
  · split <;> exact .next (.same rfl)
  · exact .next (.same rfl)

theorem execRenderCompletion_sized (s : State) : s.answersSized (execRenderCompletion s) := by
  refine .ofCatchUp ?_
  unfold execRenderCompletion
  dsimp only
  split
  · exact .next (.after (State.completeRender_keepsSizes _ _) (.same rfl))
  · exact .next (.same rfl)

theorem execKtof_sized (s : State) : s.answersSized (execKtof s) := by
  have restarted (u : State) : u.keepsSizes (u.abandonMotion.topOfForm.removeFaults tofClears) :=
    u.abandonMotion_keepsSizes.trans (.same rfl)
  have h (u : State) (hu : s.catchUp.keepsSizes u) : s.catchUp.answersSized (.next
      (if u.motion.isSome then (u.abandonMotion.topOfForm.removeFaults tofClears).applyStops
        else u.abandonMotion.topOfForm.removeFaults tofClears)) :=
    .next (hu.trans (.ite ((restarted u).trans (State.applyStops_keepsSizes _)) (restarted u)))
  exact .ofCatchUp (.ite (.next (.same rfl)) (.ite (h _ (.same rfl)) (.next (.same rfl))))

/-- Every command keeps the sizes. -/
theorem exec_sized (i : Instr) (s : State) : s.answersSized (exec i s) := by
  cases i with
  | printSpace | printSkip | moveSpace | moveSkip | loadForm | loadCodes | loadGlyph | checkBlank | checkBlock
  | unknownOrder | hold | discard | resume | sense => exact .next (strobeOrder_keepsSizes _ s)
  | dataByte => exact .ofCatchUp (.next (State.strobeRecord_keepsSizes _ _))
  | arbitrationRead p => exact execArbitrationRead_sized p s
  | senseRecordRead => exact execSenseRecordRead_sized s
  | pstrFall dir => exact execPstrFall_sized dir s
  | pinit => exact .ofCatchUp (.next (.ite (.after (State.portReset_keepsSizes _) (.same rfl)) (.same rfl)))
  | fullReset => exact execFullReset_sized s
  | startIntervalExpiry => exact execStartIntervalExpiry_sized s
  | formingIntervalExpiry => exact execFormingIntervalExpiry_sized s
  | joinFall =>
    exact .ofCatchUp (.ite (.next (.same rfl)) (.ite (.next (.after (State.breakBar_keepsSizes _) (.same rfl)))
      (.ite (.next (.same rfl)) (.next (.same rfl)))))
  | resetRelease | joinRise | coverClosed | paperPresent =>
    exact .ofCatchUp (.ite (.next (.same rfl)) (.next (.same rfl)))
  | coverOpen | kstart | kfeed =>
    exact .ofCatchUp (.ite (.next (.same rfl)) (.next (.ite (.same rfl) (.same rfl))))
  | paperAbsent =>
    exact .ofCatchUp (.ite (.next (.same rfl)) (.next (.ite (.after (State.addStop_keepsSizes _ _) (.same rfl)) (.same rfl))))
  | kstop => exact .ofCatchUp (.ite (.next (.same rfl)) (.next (.after (State.stopKey_keepsSizes _) (.same rfl))))
  | ktof => exact execKtof_sized s
  | faultRise =>
    exact .ofCatchUp (.ite (.next (.ite (.after (State.conclude_keepsSizes _) (.same rfl)) (.same rfl))) (.next (.same rfl)))
  | step => exact execStep_sized s
  | frameEvent => exact .ofCatchUp (.ite (.next s.catchUp.conclude_keepsSizes) (.next (.same rfl)))
  | pinitFall => exact .ofCatchUp (.next (.same rfl))
  | faultFall | stepRelease => exact .ofCatchUp (.next (.ite (.same rfl) (.same rfl)))
  | stepPulseEnd => exact execStepPulseEnd_sized s
  | firePulseStart => exact execFirePulseStart_sized s
  | firePulseEnd => exact execFirePulseEnd_sized s
  | frameHoldDelay => exact execFrameHoldDelay_sized s
  | frameTimerExpiry => exact execFrameTimerExpiry_sized s
  | motionStart => exact .next s.startMotion_keepsSizes
  | renderStart => exact .next s.startRender_keepsSizes
  | renderCompletion => exact execRenderCompletion_sized s
  | placeGrant => exact .next s.grantPlace_keepsSizes
  | drainEnd => exact .next s.endDrain_keepsSizes

/-- A step takes the front command, or the steps due. -/
theorem step_keepsSizes {s t : State} (h : step s = .next t) : s.keepsSizes t := by
  unfold step at h
  split at h
  next c rest _ => exact exec_sized c { s with pending := rest } t h
  next => cases h; exact s.tick_keepsSizes

/-- Settles O10: every step keeps the sizes of the stores and the bound of the input buffer. -/
theorem storesKeepTheirSizes : Obligations.StoresKeepTheirSizes :=
  ⟨fun _ _ hc hl hA hB h => (step_keepsSizes h).1 ⟨hc, hl, hA, hB⟩, fun _ _ hb h => (step_keepsSizes h).2 hb⟩

end Sys2Proof.Machine
end

section
/-! The check orders, and a data byte of a PRINT body by its column (R85, R87, R88, R102, R103, R105, R107). Settles O16 and
O19. -/

namespace Sys2Proof.Machine

/-! ## A record order in IDLE -/

/-- The order byte of a record order whose operand is in range begins its record at once (R99, R101). -/
theorem strobeOrder_startRecord {s : State} {o : RecordOrder} (hd : decodeRecordOrder (encodeRecordOrder o) = some o)
    (h : s.takesOrders = true) : strobeOrder (encodeRecordOrder o) s = s.strobed.startRecord o := by
  rw [strobeOrder_idle (decodeControlOrder_of_record hd) h, hd]

/-- Settles O16: each check order is taken at its strobe, and its record is its order byte alone (R107). -/
theorem checkOrdersSetTheMode : Obligations.CheckOrdersSetTheMode := by
  intro s h
  have blank : strobeOrder (encodeRecordOrder .checkBlank) s = s.strobed.startRecord .checkBlank :=
    strobeOrder_startRecord (by decide) h
  have block : strobeOrder (encodeRecordOrder .checkBlock) s = s.strobed.startRecord .checkBlock :=
    strobeOrder_startRecord (by decide) h
  exact ⟨congrArg Host.Outcome.next blank, congrArg Host.Outcome.next block⟩

/-! ## A data byte of a PRINT body -/

/-- The mark after a cell, with the data-check mode read as the statements read it (R88). -/
theorem LayerBuild.markAfter_eq (b : LayerBuild) (mode : CheckMode) (x : Cell) :
    b.markAfter mode x =
      if x = .unprintable ∧ b.mark = .none then (if mode = .blank then .blanked else .blocking) else b.mark := by
  cases mode <;> rfl

/-- The last of the station's columns is column 192 or one before it (R123). -/
theorem Straps.lastColumn_le (t : Straps) (h : t.fcol ≤ 192) : t.fcol + t.effective - 1 ≤ 192 := by
  have hw : t.effective ≤ 193 - t.fcol := Nat.min_le_right _ _
  omega

section PrintByte
variable (s : State) (v : Byte)

/-- A byte of the station's columns becomes its cell (R85, R88). -/
theorem State.printByte_within {b : LayerBuild} (hb : s.parser.layer = some b) (h1 : s.straps.fcol ≤ s.parser.column)
    (h2 : s.parser.column ≤ s.straps.fcol + s.straps.effective - 1) :
    s.printByte v =
      { s with
        parser :=
          { s.parser with
            column := s.parser.column + 1
            layer := some (b.place s.parser.checkMode (s.parser.column - s.straps.fcol) (translate s.codeTable v)) } } := by
  rw [State.printByte, if_pos ⟨h1, h2⟩, hb]
  rfl

/-- A byte of another column to 192 is passed over (R103). -/
theorem State.printByte_passed
    (ho : ¬(s.straps.fcol ≤ s.parser.column ∧ s.parser.column ≤ s.straps.fcol + s.straps.effective - 1))
    (hk : s.parser.column ≤ 192) :
    s.printByte v = { s with parser := { s.parser with column := s.parser.column + 1 } } := by
  rw [State.printByte, if_neg ho, if_pos hk]

/-- A byte beyond column 192 raises LONG RECORD, once a record (R105). -/
theorem State.printByte_beyond (hf : s.straps.fcol ≤ 192) (hk : 192 < s.parser.column) :
    s.printByte v =
      { s with
        parser := { s.parser with column := s.parser.column + 1, longNote := true }
        warnings := if s.parser.longNote then s.warnings else addOnce .longRecord s.warnings } := by
  have hlast := s.straps.lastColumn_le hf
  rw [State.printByte, if_neg (by omega), if_neg (by omega)]
  cases hn : s.parser.longNote with
  | true => rw [if_pos rfl, if_pos rfl, ← hn]
  | false => rfl

/-- A body byte of a PRINT record with more to come counts down after its column is done (R102). -/
theorem State.bodyByte_print {o : RecordOrder} {n : Nat} (ho : isPrint o = true)
    (hr : s.parser.remaining = some (n + 2)) :
    s.bodyByte o v =
      { s.printByte v with parser := { (s.printByte v).parser with remaining := some (n + 1) } } := by
  cases o with
  | printSpace k | printSkip c => simp [State.bodyByte, State.withRemaining, hr]
  | _ => simp [isPrint] at ho

end PrintByte

/-- Settles O19: a data byte of the body with more to come, by the column its index names. -/
theorem printByteFallsInItsColumn : Obligations.PrintByteFallsInItsColumn := by
  intro s o v b n ho hs hb hr hf _ k w p x
  have hexec : exec (.dataByte v) s = .next { s.strobed.printByte v with
      parser := { (s.strobed.printByte v).parser with remaining := some (n + 1) } } :=
    (execDataByte_body v hs).trans (congrArg Host.Outcome.next (s.strobed.bodyByte_print v ho hr))
  refine ⟨fun h1 h2 => hexec.trans ?_, fun hout hk => hexec.trans ?_, fun hk => hexec.trans ?_⟩
  · rw [s.strobed.printByte_within v hb h1 h2, LayerBuild.place, LayerBuild.markAfter_eq]
    rfl
  · have hcol : ¬(s.straps.fcol ≤ k ∧ k ≤ s.straps.fcol + w - 1) := by omega
    rw [s.strobed.printByte_passed v hcol hk]
    rfl
  · rw [s.strobed.printByte_beyond v hf hk]
    rfl

end Sys2Proof.Machine
end

section
/-! The whole LOAD CODES and LOAD GLYPH records (R92, R93, R95, R96, R102, R109, R110): the run of body bytes that are staged
one by one, the two stages, and the end of each record. Settles O23 and O24. -/

namespace Sys2Proof.Machine

/-! ## The run of staged body bytes -/

/-- A data byte at the front of the queue, at a station that was at rest in `s` and is in the body of `o` (R99, R102). -/
theorem core_run_dataByte_strobed {s : State} {p : Parser} {o : RecordOrder} (h : s.takesOrders = true)
    (hs : p.state = .body) (ho : p.order = some o) (v : Byte) (l : List Instr) (k : Nat) :
    Host.Core.run core (k + 1) { s.strobed with parser := p, pending := .dataByte v :: l } =
      Host.Core.run core k (({ s.strobed with parser := p, pending := l } : State).bodyByte o v) :=
  core_run_dataByte_body (s := { s.strobed with parser := p }) v l k (State.takesBody_of_takesOrders _ h hs ho)

/-- The body of `o` is described by its stage and the number of bytes to come, and each body byte joins the stage (R102). -/
structure StagesBytes {Stage : Type} (o : RecordOrder) (body : Stage → Nat → Parser)
    (stage : Stage → Byte → Stage) : Prop where
  state : ∀ g n, (body g n).state = .body
  order : ∀ g n, (body g n).order = some o
  remaining : ∀ g m n, { body g m with remaining := some n } = body g n
  bodyByte : ∀ (s : State) g n v,
    ({ s with parser := body g (n + 1) } : State).bodyByte o v =
      ({ s with parser := body (stage g v) (n + 1) } : State).withRemaining o n

section StagedBody
variable {Stage : Type} {o : RecordOrder} {body : Stage → Nat → Parser} {stage : Stage → Byte → Stage}

/-- The last body byte ends the record (R102). -/
theorem StagesBytes.bodyByte_last (hst : StagesBytes o body stage) (s : State) (g : Stage) (v : Byte) :
    ({ s with parser := body g 1 } : State).bodyByte o v =
      ({ s with parser := body (stage g v) 0 } : State).finishRecord o := by
  rw [hst.bodyByte s g 0, State.withRemaining, if_pos rfl, hst.remaining]

/-- After any other body byte the record goes on (R102). -/
theorem StagesBytes.bodyByte_more (hst : StagesBytes o body stage) (s : State) (g : Stage) (n : Nat) (v : Byte) :
    ({ s with parser := body g (n + 2) } : State).bodyByte o v = { s with parser := body (stage g v) (n + 1) } := by
  rw [hst.bodyByte s g (n + 1), State.withRemaining, if_neg (Nat.succ_ne_zero n), hst.remaining]

/-- The remaining body bytes are staged in order and the record ends: induction on the bytes after the first (R102). -/
theorem core_run_stagedBytes {s : State} (hst : StagesBytes o body stage) (h : s.takesOrders = true) (hp : s.pending = [])
    (v : Byte) (vs : List Byte) (g : Stage) :
    Host.Core.run core (vs.length + 1)
        { s.strobed with parser := body g (vs.length + 1), pending := (v :: vs).map .dataByte } =
      .next (({ s.strobed with parser := body ((v :: vs).foldl stage g) 0 } : State).finishRecord o) := by
  induction vs generalizing v g with
  | nil =>
    have hs : ({ s.strobed with pending := [] } : State) = s.strobed := by rw [← hp]; rfl
    have hend := congrArg (fun t : State => ({ t with parser := body (stage g v) 0 } : State).finishRecord o) hs
    refine (core_run_dataByte_strobed h (hst.state g 1) (hst.order g 1) v _ 0).trans ((core_run_zero _).trans ?_)
    exact congrArg Host.Outcome.next ((hst.bodyByte_last { s.strobed with pending := [] } g v).trans hend)
  | cons w vs ih =>
    have hmore := hst.bodyByte_more { s.strobed with pending := (w :: vs).map .dataByte } g vs.length v
    refine (core_run_dataByte_strobed h (hst.state g _) (hst.order g _) v _ _).trans ?_
    exact (congrArg (Host.Core.run core (vs.length + 1)) hmore).trans (ih w (stage g v))

end StagedBody

/-! ## The stage of LOAD CODES -/

/-- A byte up to 0x7F names a glyph, 0xFE is BLANK, any other UNPRINTABLE (R92). -/
theorem stageEntry_eq (v : Byte) :
    stageEntry v =
      if v.toNat ≤ 0x7F then .glyph (BitVec.ofNat 7 v.toNat) else if v = 0xFE then .blank else .unprintable := by
  have hblank : v.toNat = 0xFE ↔ v = 0xFE := ⟨fun h => BitVec.eq_of_toNat_eq h, fun h => h ▸ rfl⟩
  simp only [stageEntry, hblank]
  rfl

/-- A count byte stands for a number of entries from 1 to 256 (R92). -/
theorem entryCount_ofNat {n : Nat} (h1 : 1 ≤ n) (h : n ≤ 256) : entryCount (BitVec.ofNat 8 n) = n := by
  rw [entryCount, BitVec.toNat_ofNat]
  by_cases hn : n = 256
  · subst hn
    rfl
  · rw [Nat.mod_eq_of_lt (by omega), if_neg (by omega)]

/-- The entries staged for code `f` on, after one byte more: an entry for a code of 256 or above is not staged (R92). -/
def stageCode (f : Nat) (es : List Cell) (v : Byte) : List Cell :=
  if f + es.length < 256 then es ++ [stageEntry v] else es

/-- The entries of a run that ends within the table are staged one and all (R92). -/
theorem foldl_stageCode {f : Nat} (vs : List Byte) (es : List Cell) (h : f + es.length + vs.length ≤ 256) :
    vs.foldl (stageCode f) es = es ++ vs.map stageEntry := by
  induction vs generalizing es with
  | nil => simp
  | cons v vs ih =>
    rw [List.length_cons] at h
    have hroom : stageCode f es v = es ++ [stageEntry v] := if_pos (by omega)
    have hlen : (es ++ [stageEntry v]).length = es.length + 1 := by simp
    rw [List.foldl_cons, hroom, ih _ (by omega), List.map_cons, List.append_assoc, List.singleton_append]

/-- The parser in the body of a LOAD CODES of `c` entries for code `f` on, `es` of them staged and `n` bytes to come (R98). -/
def codesBody (mode : CheckMode) (f c : Nat) (es : List Cell) (n : Nat) : Parser :=
  { state := .body
    order := some .loadCodes
    remaining := some n
    codeStage := { first := some f, count := some c, entries := es }
    checkMode := mode }

/-- The entry bytes of a LOAD CODES join the stage (R92). -/
theorem codesBody_stages (mode : CheckMode) (f c : Nat) :
    StagesBytes .loadCodes (codesBody mode f c) (stageCode f) := by
  refine ⟨fun _ _ => rfl, fun _ _ => rfl, fun _ _ _ => rfl, fun s es n v => ?_⟩
  have hstage : ({ first := some f, count := some c, entries := es } : CodeStage).entryByte v =
      { first := some f, count := some c, entries := stageCode f es v } := by
    unfold CodeStage.entryByte stageCode
    exact (apply_ite (fun l => ({ first := some f, count := some c, entries := l } : CodeStage)) _ _ _).symm
  simp [codesBody, State.bodyByte, hstage]

/-- The first code and the count open the stage, with `c` entries to come (R92, R102). -/
theorem State.bodyByte_codesStart (s : State) (f : Byte) {v : Byte} {c : Nat} (hv : entryCount v = c) (hc : c ≠ 0) :
    ((s.enterBody .loadCodes).bodyByte .loadCodes f).bodyByte .loadCodes v =
      { s with parser := codesBody s.parser.checkMode f.toNat c [] c } := by
  simp [State.enterBody, isPrint, State.bodyByte, State.withRemaining, hv, hc, codesBody]

/-! ## A whole LOAD CODES record -/

/-- A LOAD CODES in IDLE enters its body at once (R109). -/
theorem execLoadCodes_idle {s : State} (h : s.takesOrders = true) :
    exec .loadCodes s = .next (s.strobed.enterBody .loadCodes) :=
  congrArg Host.Outcome.next (strobeOrder_startRecord (o := .loadCodes) (by decide) h)

/-- The whole record, up to its end: the order, the first code, the count and the entries (R102, R109). -/
theorem core_run_loadCodes {s : State} (h : s.takesOrders = true) (hp : s.pending = []) (f v : Byte) (vs : List Byte)
    (hlen : vs.length + 1 ≤ 256) :
    Host.Core.run core (vs.length + 1 + 3)
        { s with
          pending := .loadCodes :: .dataByte f :: .dataByte (BitVec.ofNat 8 (vs.length + 1)) :: (v :: vs).map .dataByte } =
      .next (({ s.strobed with
        parser := codesBody s.parser.checkMode f.toNat (vs.length + 1) ((v :: vs).foldl (stageCode f.toNat) []) 0 } :
          State).finishCodes) := by
  have horder (l : List Instr) :
      exec .loadCodes { s with pending := l } = .next (({ s with pending := l } : State).strobed.enterBody .loadCodes) :=
    execLoadCodes_idle h
  have hcount := entryCount_ofNat (Nat.le_add_left 1 vs.length) hlen
  refine (core_run_command _ (horder _)).trans ?_
  refine (core_run_dataByte_strobed h rfl rfl f _ _).trans ?_
  refine (core_run_dataByte_strobed (o := .loadCodes) h rfl rfl (BitVec.ofNat 8 (vs.length + 1)) _ _).trans ?_
  have hstart := State.bodyByte_codesStart { s.strobed with pending := (v :: vs).map .dataByte } f hcount (Nat.succ_ne_zero _)
  exact (congrArg (Host.Core.run core (vs.length + 1)) hstart).trans
    (core_run_stagedBytes (codesBody_stages s.parser.checkMode f.toNat (vs.length + 1)) h hp v vs [])

/-- The installed entries of a run are the entry bytes, each as R92 reads it (R93). -/
theorem installCodes_map (table : List Cell) (f : Nat) (vs : List Byte) :
    installCodes table f vs.length (vs.map stageEntry) =
      table.mapIdx fun i old => if f ≤ i ∧ i < f + vs.length then stageEntry (vs.getD (i - f) 0) else old := by
  unfold installCodes
  congr 1
  funext i old
  by_cases hi : f ≤ i ∧ i < f + vs.length
  · have hlt : i - f < vs.length := by omega
    simp [hi, hlt]
  · rw [if_neg hi, if_neg hi]

section Finish
variable {s : State} {f c : Nat} {es : List Cell}

/-- A run of codes that ends within the table replaces its entries (R93). -/
theorem State.finishCodes_installed (h : f + c ≤ 256) :
    ({ s.strobed with parser := codesBody s.parser.checkMode f c es 0 } : State).finishCodes =
      { s.strobed with parser := s.idleParser, codeTable := installCodes s.codeTable f c es } := by
  simp [State.finishCodes, codesBody, h, State.clearParser, State.idleParser]

/-- A run of codes that ends beyond the table is rejected whole (R93). -/
theorem State.finishCodes_rejected (h : ¬f + c ≤ 256) :
    ({ s.strobed with parser := codesBody s.parser.checkMode f c es 0 } : State).finishCodes =
      { s.strobed with parser := s.idleParser, warnings := addOnce .loadRejected s.warnings } := by
  simp [State.finishCodes, codesBody, h, State.clearParser, State.raise, State.idleParser]

end Finish

/-- Settles O23: the run of the whole record, and whether the run of codes ends within the table. -/
theorem codeLoadReplacesItsRun : Obligations.CodeLoadReplacesItsRun := by
  refine ⟨stageEntry_eq, fun s f entries h hp h1 hlen => ?_⟩
  obtain ⟨v, vs, rfl⟩ := List.exists_cons_of_length_pos h1
  refine (core_run_loadCodes h hp f v vs hlen).trans (congrArg Host.Outcome.next ?_)
  by_cases hfit : f.toNat + (v :: vs).length ≤ 256
  · have hstaged : (v :: vs).foldl (stageCode f.toNat) [] = (v :: vs).map stageEntry :=
      foldl_stageCode (v :: vs) [] hfit
    rw [hstaged]
    refine (State.finishCodes_installed hfit).trans (Eq.trans ?_ (if_pos hfit).symm)
    rw [installCodes_map]
  · exact (State.finishCodes_rejected hfit).trans (if_neg hfit).symm

/-! ## A whole LOAD GLYPH record -/

/-- A body byte of LOAD GLYPH joins the stage: the first is the index, the others are rows (R95). -/
def GlyphStage.bodyByte (g : GlyphStage) (v : Byte) : GlyphStage :=
  match g.index with
  | none => { g with index := some v.toNat }
  | some _ => { g with rows := g.rows ++ [v] }

/-- With the index staged, every byte is a row (R95). -/
theorem foldl_glyphStage_rows (i : Nat) (vs rows : List Byte) :
    vs.foldl GlyphStage.bodyByte { index := some i, rows := rows } = { index := some i, rows := rows ++ vs } := by
  induction vs generalizing rows with
  | nil => simp
  | cons v vs ih => simpa [GlyphStage.bodyByte] using ih (rows ++ [v])

/-- The parser in the body of a LOAD GLYPH with the stage `g` and `n` bytes to come (R98). -/
def glyphBody (mode : CheckMode) (g : GlyphStage) (n : Nat) : Parser :=
  { state := .body, order := some .loadGlyph, remaining := some n, glyphStage := g, checkMode := mode }

/-- The body bytes of a LOAD GLYPH join the stage (R95). -/
theorem glyphBody_stages (mode : CheckMode) : StagesBytes .loadGlyph (glyphBody mode) GlyphStage.bodyByte :=
  ⟨fun _ _ => rfl, fun _ _ => rfl, fun _ _ _ => rfl, fun _ _ _ _ => rfl⟩

/-- A LOAD GLYPH at rest enters its body, with ten bytes to come (R110, R111). -/
theorem execLoadGlyph_at_rest {s : State} (h : s.takesOrders = true) (hd : s.drained = true) :
    exec .loadGlyph s = .next { s.strobed with parser := glyphBody s.parser.checkMode {} 10 } := by
  have hdrained : s.strobed.drained = true := hd
  have hstart : s.strobed.startRecord .loadGlyph = s.strobed.enterBody .loadGlyph := if_pos hdrained
  exact congrArg Host.Outcome.next ((strobeOrder_startRecord (o := .loadGlyph) (by decide) h).trans hstart)

/-- The whole record, up to its end: the order, the index and the nine rows (R102, R110). -/
theorem core_run_loadGlyph {s : State} (h : s.takesOrders = true) (hp : s.pending = []) (hd : s.drained = true) (g : Byte)
    (rows : List Byte) (hlen : rows.length = 9) :
    Host.Core.run core 11 { s with pending := .loadGlyph :: .dataByte g :: rows.map .dataByte } =
      .next (({ s.strobed with
        parser := glyphBody s.parser.checkMode { index := some g.toNat, rows := rows } 0 } : State).finishGlyph) := by
  have horder (l : List Instr) : exec .loadGlyph { s with pending := l } =
      .next { s.strobed with parser := glyphBody s.parser.checkMode {} 10, pending := l } := execLoadGlyph_at_rest h hd
  have hbytes := core_run_stagedBytes (glyphBody_stages s.parser.checkMode) h hp g rows {}
  have hstaged : (g :: rows).foldl GlyphStage.bodyByte {} = { index := some g.toNat, rows := rows } :=
    foldl_glyphStage_rows g.toNat rows []
  rw [hlen, hstaged] at hbytes
  exact (core_run_command 10 (horder _)).trans hbytes

section Finish
variable {s : State} {g : Nat} {rows : List Byte}

/-- A loadable glyph is replaced (R96). -/
theorem State.finishGlyph_installed (h : 96 ≤ g ∧ g ≤ 127) :
    ({ s.strobed with parser := glyphBody s.parser.checkMode { index := some g, rows := rows } 0 } : State).finishGlyph =
      { s.strobed with parser := s.idleParser, loadable := s.loadable.set (g - 96) rows } := by
  simp [State.finishGlyph, glyphBody, h, State.clearParser, State.idleParser, installGlyph]

/-- Any other glyph is not loadable: the record is rejected (R95). -/
theorem State.finishGlyph_rejected (h : ¬(96 ≤ g ∧ g ≤ 127)) :
    ({ s.strobed with parser := glyphBody s.parser.checkMode { index := some g, rows := rows } 0 } : State).finishGlyph =
      { s.strobed with parser := s.idleParser, warnings := addOnce .loadRejected s.warnings } := by
  simp [State.finishGlyph, glyphBody, h, State.clearParser, State.raise, State.idleParser]

end Finish

/-- Settles O24: the run of the whole record, and whether its index is that of a loadable glyph. -/
theorem glyphLoadInstallsOrIsRejected : Obligations.GlyphLoadInstallsOrIsRejected := by
  intro s g rows h hp hd hlen
  refine (core_run_loadGlyph h hp hd g rows hlen).trans (congrArg Host.Outcome.next ?_)
  by_cases hg : 96 ≤ g.toNat ∧ g.toNat ≤ 127
  · exact (State.finishGlyph_installed hg).trans (if_pos hg).symm
  · exact (State.finishGlyph_rejected hg).trans (if_neg hg).symm

end Sys2Proof.Machine
end

section
/-! The record order bytes and the parser's waits: an order byte in IDLE, one that ends a record short, a stray byte, a byte that
waits or is lost, and the end of the drain wait (R99, R101, R108 to R118, R154 to R157). Settles O15, O17, O18, O25 and O27. -/

namespace Sys2Proof.Machine

/-! ## The byte of a record strobe -/

/-- A record order with its operand in R170's range reads back from its order byte. -/
theorem decodeRecordOrder_encode_of_wf {i : Instr} {o : RecordOrder} (hw : i.wf = true) (ho : recordOrderOf i = some o) :
    decodeRecordOrder (encodeRecordOrder o) = some o := by
  cases i <;> cases ho
  case printSpace k =>
    have hk : k ≤ 3 := of_decide_eq_true hw
    have all : ∀ k < 4, decodeRecordOrder (encodeRecordOrder (.printSpace k)) = some (.printSpace k) := by decide
    exact all k (by omega)
  case printSkip c =>
    obtain ⟨h1, hn⟩ : 1 ≤ c ∧ c ≤ 12 := by simpa [Instr.wf] using hw
    have all : ∀ c < 13, 1 ≤ c → decodeRecordOrder (encodeRecordOrder (.printSkip c)) = some (.printSkip c) := by decide
    exact all c (by omega) h1
  case moveSpace k =>
    obtain ⟨h1, hn⟩ : 1 ≤ k ∧ k ≤ 3 := by simpa [Instr.wf] using hw
    have all : ∀ k < 4, 1 ≤ k → decodeRecordOrder (encodeRecordOrder (.moveSpace k)) = some (.moveSpace k) := by decide
    exact all k (by omega) h1
  case moveSkip c =>
    obtain ⟨h1, hn⟩ : 1 ≤ c ∧ c ≤ 12 := by simpa [Instr.wf] using hw
    have all : ∀ c < 13, 1 ≤ c → decodeRecordOrder (encodeRecordOrder (.moveSkip c)) = some (.moveSkip c) := by decide
    exact all c (by omega) h1
  case loadForm | loadCodes | loadGlyph | checkBlank | checkBlock => rfl

/-- A value of R170's list of unknown values is no record order. -/
theorem decodeRecordOrder_of_unknown {v : Byte} (h : unknownOrderValue v = true) : decodeRecordOrder v = none := by
  simp only [unknownOrderValue, Bool.or_eq_true, Bool.and_eq_true, decide_eq_true_eq, beq_iff_eq] at h
  simp only [decodeRecordOrder]
  rw [if_neg, if_neg, if_neg, if_neg, if_neg, if_neg, if_neg, if_neg, if_neg] <;> omega

/-- The command of a record order or an unknown order strobes an order byte that is no control order, and that the parser reads as
the command's record order, or as none (R154, R170). -/
theorem exec_orderByte {i : Instr} (hw : i.wf = true) (h : (recordOrderOf i).isSome = true ∨ ∃ v, i = .unknownOrder v) :
    ∃ v, portByteOf i = some { value := v, order := true } ∧ decodeControlOrder v = none ∧
      decodeRecordOrder v = recordOrderOf i ∧ ∀ s, exec i s = .next (strobeOrder v s) := by
  rcases h with h | ⟨v, rfl⟩
  · obtain ⟨o, ho⟩ := Option.isSome_iff_exists.1 h
    have hd := decodeRecordOrder_encode_of_wf hw ho
    refine ⟨encodeRecordOrder o, ?_, decodeControlOrder_of_record hd, hd.trans ho.symm, ?_⟩
    · cases i <;> cases ho <;> rfl
    · cases i <;> cases ho <;> exact fun _ => rfl
  · exact ⟨v, rfl, decodeControlOrder_of_unknown hw, decodeRecordOrder_of_unknown hw, fun _ => rfl⟩

/-- A command that brings a byte is a data byte, a record order or an unknown order (R100, R154). -/
theorem portByteOf_cases {i : Instr} {b : PortByte} (h : portByteOf i = some b) :
    (∃ v, i = .dataByte v ∧ b = { value := v, order := false }) ∨
      ((recordOrderOf i).isSome = true ∨ ∃ v, i = .unknownOrder v) := by
  cases i <;> cases h
  case dataByte v => exact .inl ⟨v, rfl, rfl⟩
  case unknownOrder v => exact .inr (.inr ⟨v, rfl⟩)
  all_goals exact .inr (.inl rfl)

/-- With nothing due, the byte of a record strobe goes down the strobe's path to the input buffer (R154, R155). -/
theorem exec_portByte {s : State} {i : Instr} {b : PortByte} (hw : i.wf = true) (hb : portByteOf i = some b)
    (hq : s.quiet = true) : exec i s = .next (s.strobeRecord b) := by
  rcases portByteOf_cases hb with ⟨v, rfl, rfl⟩ | ho
  · show Host.Outcome.next (s.catchUp.strobeRecord _) = _
    rw [State.catchUp_of_quiet hq]
  · obtain ⟨v, hv, hc, -, hexec⟩ := exec_orderByte hw ho
    cases hv.symm.trans hb
    rw [hexec, strobeOrder_record hc, State.catchUp_of_quiet hq]

/-! ## An order byte ends a record short -/

/-- An order byte taken in BODY or AWAIT DRAIN first ends the record in hand short (R116). -/
theorem State.takeOrder_inRecord {s : State} (v : Byte) (h : s.parser.state = .body ∨ s.parser.state = .awaitDrain) :
    s.takeOrder v = s.endShort.begins (decodeRecordOrder v) := by
  unfold State.takeOrder
  rcases h with h | h <;> rw [h] <;> cases decodeRecordOrder v <;> rfl

/-- A load ended short is dropped with SHORT RECORD and LOAD REJECTED (R116). -/
theorem State.endShort_load {s : State} {o : RecordOrder} (ho : s.parser.order = some o) (hl : isPrint o = false) :
    s.endShort =
      { s with parser := s.idleParser, warnings := addOnce .loadRejected (addOnce .shortRecord s.warnings) } := by
  simp [State.endShort, ho, hl, State.raise, State.clearParser, State.idleParser]

/-- An order byte strobed to a station that takes it at once (R99, R154). -/
theorem strobeOrder_taken {s : State} {v : Byte} (hc : decodeControlOrder v = none) (hq : s.quiet = true)
    (ha : s.answers = true) (hm : s.mode.working = true) (hb : s.inputBuffer = []) (hp : s.parser.state ≠ .awaitPlace) :
    strobeOrder v s = s.strobed.takeOrder v := by
  have htakes : s.strobed.parser.takes { value := v, order := true } = true := by
    cases h : s.parser.state <;> simp_all [Parser.takes]
  rw [strobeOrder_record hc, State.catchUp_of_quiet hq, State.strobeRecord_taken _ ha hm,
    State.receive_taken (s := s.strobed) hb htakes]
  rfl

/-! ## A PRINT record ends -/

/-- The model's offer of a layer is the one that the statements write out (R3, R13, R14, R90). -/
theorem Composite.offer_eq_struck (l : Layer) (m : Mark) (short : Bool) (c : Composite) :
    c.offer l m short = c.struck l m short := by
  by_cases h : c.layers.length < 4
  · have hnot : ¬4 ≤ c.layers.length := by omega
    simp [Composite.offer, Composite.struck, h, hnot]
  · have hfull : 4 ≤ c.layers.length := by omega
    simp [Composite.offer, Composite.struck, h, hfull]

/-- The warnings of an offer are those that the statements write out (R3, R14, R89). -/
theorem Composite.raise_offerWarnings (m : Mark) (short : Bool) (c : Composite) (ws : List Warning) :
    (c.offerWarnings m short).foldl (fun l w => addOnce w l) ws = c.struckWarnings m short ws := by
  by_cases h : c.layers.length < 4
  · have hnot : ¬4 ≤ c.layers.length := by omega
    by_cases hm : m = .blanked <;> by_cases hs : short = true ∧ c.flags.short = false <;>
      simp [Composite.offerWarnings, Composite.struckWarnings, h, hnot, hm, hs]
  · have hfull : 4 ≤ c.layers.length := by omega
    cases ho : c.flags.layerOverflow <;> by_cases hs : short = true ∧ c.flags.short = false <;>
      simp [Composite.offerWarnings, Composite.struckWarnings, h, hfull, ho, hs]

/-- A composite that was offered a layer holds one, and is in the state it was in (R3, R13). -/
theorem Composite.struck_layered (l : Layer) (m : Mark) (short : Bool) (c : Composite) :
    (c.struck l m short).layers ≠ [] ∧ (c.struck l m short).state = c.state := by
  unfold Composite.struck
  split
  · simp
  · refine ⟨?_, rfl⟩
    rintro (hnil : c.layers = [])
    simp_all

/-- The action of a line order closes a composite with layers, as the statements write it (R11, R12, R15). -/
theorem Composite.close_layered {a : Action} {c : Composite} (h : c.layers ≠ []) :
    c.close a = { c with action := some a, state := .closed } := by
  simp [Composite.close, h]

/-- A PRINT record ends on the newest composite, OPEN: its layer is offered, and its action closes the composite (R11, R15, R104,
R116). -/
theorem State.finishPrint_newest {s : State} {o : RecordOrder} {b : LayerBuild} {q : List Composite} {c : Composite}
    (short : Bool) (ho : isPrint o = true) (hl : s.parser.layer = some b) (hq : s.queue = q ++ [c])
    (hpre : ∀ x ∈ q, x.state ≠ .opened) (hc : c.state = .opened) :
    s.finishPrint o short =
      { s with
        parser := s.idleParser
        queue := q ++ [(c.struck b.complete b.mark short).afterPrint o]
        warnings := c.struckWarnings b.mark short s.warnings } := by
  obtain ⟨hne, hst⟩ := c.struck_layered b.complete b.mark short
  have hoffer : s.offerLayer b.complete b.mark short =
      { s with
        queue := q ++ [c.struck b.complete b.mark short]
        warnings := c.struckWarnings b.mark short s.warnings } := by
    rw [State.offerLayer_newest _ _ _ hq hpre hc, State.raiseAll_eq, Composite.offer_eq_struck]
    simp only [Composite.raise_offerWarnings]
  have hclose (a : Action) : (s.offerLayer b.complete b.mark short).closeOpen a =
      { s with
        queue := q ++ [{ c.struck b.complete b.mark short with action := some a, state := .closed }]
        warnings := c.struckWarnings b.mark short s.warnings } := by
    rw [hoffer, State.closeOpen, State.onOpen_newest _ rfl hpre (hst.trans hc), Composite.close_layered hne]
  unfold State.finishPrint
  rw [hl]
  cases o with
  | printSkip ch =>
    show ((s.offerLayer b.complete b.mark short).closeOpen (.skip ch)).clearParser = _
    rw [hclose]
    rfl
  | printSpace k =>
    cases k with
    | zero =>
      show (s.offerLayer b.complete b.mark short).clearParser = _
      rw [hoffer]
      rfl
    | succ k =>
      show ((s.offerLayer b.complete b.mark short).closeOpen (.space (k + 1))).clearParser = _
      rw [hclose]
      rfl
  | _ => cases ho

/-! ## The drain condition -/

/-- The drain condition as the statements write it: no composite but an OPEN one, and no motion (R111). -/
theorem State.drained_iff (s : State) :
    s.drained = true ↔ (s.queue = [] ∨ ∃ c, s.queue = [c] ∧ c.state = .opened) ∧ s.motion = none := by
  rw [State.drained, Bool.and_eq_true, Option.isNone_iff_eq_none]
  match s.queue with
  | [] => simp
  | [c] => simp
  | _ :: _ :: _ => simp

/-! ## The input buffer through a byte that is taken -/

/-- The beginning of a record leaves the bytes that wait (R99). -/
theorem State.startRecord_inputBuffer (s : State) (o : RecordOrder) : (s.startRecord o).inputBuffer = s.inputBuffer := by
  have hline (t : State) : (t.takeLine o).inputBuffer = t.inputBuffer := by
    unfold State.takeLine
    split
    · rfl
    · split <;> rfl
  have hlineOrder : (s.lineOrder o).inputBuffer = s.inputBuffer := by
    unfold State.lineOrder
    split
    · exact hline s
    · split
      · exact hline s.createComposite
      · rfl
  have hdrain : (s.drainOrder o).inputBuffer = s.inputBuffer := by
    unfold State.drainOrder
    split <;> rfl
  cases o with
  | printSpace | printSkip | moveSpace | moveSkip => exact hlineOrder
  | loadForm | loadGlyph => exact hdrain
  | loadCodes | checkBlank | checkBlock => rfl

/-- What an order byte does in IDLE leaves the bytes that wait (R99). -/
theorem State.begins_inputBuffer (s : State) (o : Option RecordOrder) : (s.begins o).inputBuffer = s.inputBuffer := by
  cases o with
  | some o => exact s.startRecord_inputBuffer o
  | none => rfl

/-- The oldest byte, where the parser's state takes it, leaves the buffer and is taken (R99, R155). -/
theorem State.runParser_taken {s : State} {b : PortByte} {rest : List PortByte} (n : Nat) (h : s.inputBuffer = b :: rest)
    (ht : s.parser.takes b = true) : s.runParser (n + 1) = (State.takeByte b { s with inputBuffer := rest }).runParser n := by
  rw [State.runParser, h]
  exact if_pos ht

/-- Where the parser's state does not take the oldest byte, all bytes wait (R99, R114, R115). -/
theorem State.runParser_waits {s : State} (n : Nat) (h : ∀ b ∈ s.inputBuffer.head?, s.parser.takes b = false) :
    s.runParser n = s := by
  cases n with
  | zero => rfl
  | succ n =>
    unfold State.runParser
    cases hb : s.inputBuffer with
    | nil => rfl
    | cons b rest => simp [h b (by simp [hb])]

/-- Two bytes that wait, the first taken: the second is taken where the parser's state then takes it (R99, R155). -/
theorem State.parse_two {s one : State} {x y : PortByte} (h : s.inputBuffer = [x, y]) (hx : s.parser.takes x = true)
    (hone : State.takeByte x { s with inputBuffer := [y] } = one) (hkeep : one.inputBuffer = [y]) :
    s.parse = if one.parser.takes y then State.takeByte y { one with inputBuffer := [] } else one := by
  have hfirst : s.parse = one.runParser 1 := by
    rw [State.parse, h, ← hone]
    exact State.runParser_taken 1 h hx
  rw [hfirst]
  split
  next hy => exact State.runParser_taken 0 hkeep hy
  next hy => exact State.runParser_waits 1 (by simpa [hkeep] using hy)

/-- A byte received while the parser's state does not take the oldest joins the buffer's end (R114, R115, R155). -/
theorem State.receive_waits {s : State} {b : PortByte} (h : s.inputBuffer.length < 2)
    (ht : ∀ x ∈ (s.inputBuffer ++ [b]).head?, s.parser.takes x = false) :
    s.receive b = { s with inputBuffer := s.inputBuffer ++ [b] } := by
  rw [State.receive, if_pos h]
  exact State.runParser_waits _ ht

/-! ## The entered load -/

/-- The first data byte of an entered LOAD FORM is its pitch code (R102, R108). -/
theorem State.takeByte_entered_loadForm (s : State) (v : Byte) :
    (s.enterBody .loadForm).takeByte { value := v, order := false } =
      { s.enterBody .loadForm with
        parser := { (s.enterBody .loadForm).parser with formStage := { pitch := stagePitch v } } } := rfl

/-- The first data byte of an entered LOAD GLYPH is its index (R102, R110). -/
theorem State.takeByte_entered_loadGlyph (s : State) (v : Byte) :
    (s.enterBody .loadGlyph).takeByte { value := v, order := false } =
      { s.enterBody .loadGlyph with
        parser := { (s.enterBody .loadGlyph).parser with remaining := some 9, glyphStage := { index := some v.toNat } } } := rfl

/-- The first byte taken after the entry leaves the bytes behind it (R99, R102, R116). -/
theorem State.takeByte_entered_inputBuffer {o : RecordOrder} (s : State) (x : PortByte) (ho : o = .loadForm ∨ o = .loadGlyph) :
    ((s.enterBody o).takeByte x).inputBuffer = s.inputBuffer := by
  obtain ⟨v, order⟩ := x
  cases order with
  | false =>
    rcases ho with rfl | rfl
    · rw [State.takeByte_entered_loadForm]; rfl
    · rw [State.takeByte_entered_loadGlyph]; rfl
  | true =>
    have hshort : (s.enterBody o).endShort.inputBuffer = s.inputBuffer := by rcases ho with rfl | rfl <;> rfl
    show ((s.enterBody o).takeOrder v).inputBuffer = _
    rw [State.takeOrder_inRecord v (.inl rfl), State.begins_inputBuffer, hshort]

/-- DRAIN_END with the drain condition held: the waiting load enters its body, and the parser takes what waits (R112). -/
theorem exec_drainEnd {s : State} {o : RecordOrder} (hp : s.parser.state = .awaitDrain) (hd : s.drained = true)
    (ho : s.parser.order = some o) : exec .drainEnd s = .next (s.enterBody o).parse := by
  have hdue : s.drainDue = true := by simp [State.drainDue, hp, hd, ho]
  show Host.Outcome.next s.endDrain = _
  rw [State.endDrain, if_pos hdue, ho]

/-- The pitch code as R27 reads it. -/
theorem stagePitch_eq (v : Byte) :
    stagePitch v = if v = 6 then .valid .twelve else if v = 8 then .valid .nine else .invalid := by
  split
  · next h => rw [h, stagePitch_six]
  · next h6 =>
    split
    · next h => rw [h, stagePitch_eight]
    · next h8 => exact stagePitch_other h6 h8

/-! ## The statements -/

/-- Settles O15: each load order begins its record at its strobe, and the drain condition decides for the two that wait. -/
theorem loadOrdersJudgeTheDrain : Obligations.LoadOrdersJudgeTheDrain := by
  intro s h rest inBody waits
  have form : exec .loadForm s = .next (s.strobed.drainOrder .loadForm) :=
    congrArg Host.Outcome.next (strobeOrder_startRecord (o := .loadForm) (by decide) h)
  have glyph : exec .loadGlyph s = .next (s.strobed.drainOrder .loadGlyph) :=
    congrArg Host.Outcome.next (strobeOrder_startRecord (o := .loadGlyph) (by decide) h)
  refine ⟨fun hr => ?_, fun hr => ?_, execLoadCodes_idle h⟩
  · have hd : s.strobed.drained = true := s.drained_iff.2 hr
    rw [form, glyph, State.drainOrder, State.drainOrder, if_pos hd, if_pos hd]
    exact ⟨rfl, rfl⟩
  · have hd : ¬s.strobed.drained = true := fun hd => hr (s.drained_iff.1 hd)
    rw [form, glyph, State.drainOrder, State.drainOrder, if_neg hd, if_neg hd]
    exact ⟨rfl, rfl⟩

/-- Settles O17: the order byte is taken at its strobe; a record in hand ends short before it acts as in IDLE. -/
theorem orderByteEndsTheRecordShort : Obligations.OrderByteEndsTheRecordShort := by
  intro s i hw hi
  obtain ⟨v, -, hc, hread, hexec⟩ := exec_orderByte hw hi
  rw [hexec, ← hread]
  refine ⟨fun h => ?_, fun o ho h => ?_, fun o q c b ho h hl hq hpre hco => ?_⟩
  · rw [strobeOrder_idle hc h]
    cases decodeRecordOrder v <;> rfl
  · have hload : isPrint o = false := by rcases ho with rfl | rfl | rfl <;> rfl
    obtain ⟨hq, ha, hm, hb, hp, hor⟩ : s.quiet = true ∧ s.answers = true ∧ s.mode.working = true ∧ s.inputBuffer = [] ∧
        (s.parser.state = .body ∨ s.parser.state = .awaitDrain) ∧ s.parser.order = some o := by
      rcases h with h | ⟨hq, ha, hm, hb, hp, hor⟩
      · obtain ⟨hq, ha, hm, hb, hp, hor⟩ := (s.takesBody_iff o).1 h
        exact ⟨hq, ha, hm, hb, .inl hp, hor⟩
      · exact ⟨hq, ha, hm, hb, .inr hp, hor⟩
    have hnot : s.parser.state ≠ .awaitPlace := by rcases hp with hp | hp <;> simp [hp]
    rw [strobeOrder_taken hc hq ha hm hb hnot, State.takeOrder_inRecord (s := s.strobed) v hp,
      State.endShort_load (s := s.strobed) hor hload]
    rfl
  · obtain ⟨hquiet, ha, hm, hb, hp, hor⟩ := (s.takesBody_iff o).1 h
    have hend : s.strobed.endShort = s.strobed.finishPrint o true := by simp [State.endShort, hor, ho]
    rw [strobeOrder_taken hc hquiet ha hm hb (by simp [hp]), State.takeOrder_inRecord (s := s.strobed) v (.inl hp),
      hend, State.finishPrint_newest (s := s.strobed) true ho hl hq hpre hco]
    rfl

/-- Settles O18: at the strobe, and from the buffer. -/
theorem strayByteIsIgnored : Obligations.StrayByteIsIgnored := by
  refine ⟨fun s v h => execDataByte_idle v h, fun s v h => ?_⟩
  rw [State.takeData, h]
  rfl

/-- Settles O25: the path of the byte, by what the buffer holds and what the parser's state takes. -/
theorem recordByteIsTakenWaitsOrIsLost : Obligations.RecordByteIsTakenWaitsOrIsLost := by
  intro s i b hw hb hq
  have hexec := exec_portByte hw hb hq
  refine ⟨fun ha hm => ?_, fun ha hf => ?_, fun ha => ?_⟩
  · rw [State.strobeRecord_taken b ha hm] at hexec
    rw [hexec]
    have hwaits := State.receive_waits (s := s.strobed) (b := b)
    refine ⟨fun he ht => ?_, fun hp hl => ?_, fun hp ho he => ?_, fun x hp ho he => ?_, fun hl => ?_⟩
    · exact congrArg Host.Outcome.next (State.receive_taken (s := s.strobed) he ht)
    · refine ⟨_, rfl, hwaits hl fun x _ => by simp [Parser.takes, hp], fun he => ?_⟩
      rw [hwaits hl fun x _ => by simp [Parser.takes, hp]]
      have hone : 1 ≤ s.inputBuffer.length := List.length_pos_iff.2 he
      exact (State.holdsPrdy_iff _).2 (.inl (by simp; omega))
    · rw [hwaits (by simp [he]) (by simp [he, Parser.takes, hp, ho])]
      simp [he]
    · refine ⟨_, rfl, ?_⟩
      rw [hwaits (by simp [he]) (by simp [he, Parser.takes, hp, ho])]
      exact ⟨by simp [he], (State.holdsPrdy_iff _).2 (.inl (by simp [he]))⟩
    · refine ⟨_, rfl, ?_⟩
      rw [State.receive_full (s := s.strobed) hl]
      refine ⟨State.recordFault_eq_stoppedBy _ _, rfl, rfl, rfl, ?_⟩
      simp [State.holdsFault, State.faulted, State.holdsPrdy, hl]
  · have hm : s.mode.working = false := by rw [hf]; rfl
    rw [hexec, State.strobeRecord_passed b (.inr hm), State.writeRise_of_answers ha]
  · rw [hexec, State.strobeRecord_passed b (.inl ha), State.writeRise, if_neg (by simp [ha])]

/-- Settles O27: the load enters its body, whose state takes any byte. -/
theorem drainEndEntersTheBody : Obligations.DrainEndEntersTheBody := by
  intro s o hp hd ho hor body entered
  have hbody : s.enterBody o = { s with parser := body } := by rcases ho with rfl | rfl <;> rfl
  have hwith (l : List PortByte) : ({ s.enterBody o with inputBuffer := l } : State) = { entered with inputBuffer := l } := by
    rw [hbody]
  rw [exec_drainEnd hp hd hor]
  refine ⟨fun hb => ?_, fun x hb => ?_, fun x y hb => ?_, ?_, ?_⟩
  · rw [State.parse_of_empty (s := s.enterBody o) hb, hbody]
    show Host.Outcome.next _ = .next { s with parser := body, inputBuffer := [] }
    rw [← hb]
  · rw [State.parse_one (s := s.enterBody o) hb rfl, hwith]
    rfl
  · intro one
    have hone : State.takeByte x { s.enterBody o with inputBuffer := [y] } = one := congrArg (State.takeByte x) (hwith [y])
    have hkeep : one.inputBuffer = [y] :=
      hone ▸ State.takeByte_entered_inputBuffer { s with inputBuffer := [y] } x ho
    rw [State.parse_two (s := s.enterBody o) hb rfl hone hkeep]
  · rintro v rfl
    rw [← stagePitch_eq]
    exact State.takeByte_entered_loadForm { s with inputBuffer := [] } v
  · rintro v rfl
    exact State.takeByte_entered_loadGlyph { s with inputBuffer := [] } v

end Sys2Proof.Machine
end

section
/-! The straps (R122, R123): what their sampling clamps, and that no command but a full reset and its release changes them. Settles
O11 and O37. -/

namespace Sys2Proof.Machine

/-! ## The clamps -/

theorem clampColumn_zero : clampColumn 0 = 1 := rfl

theorem clampColumn_within {raw : BitVec 8} (h1 : 1 ≤ raw.toNat) (h : raw.toNat ≤ 192) : clampColumn raw = raw.toNat := by
  rw [clampColumn, if_neg (by omega), if_pos h]

theorem clampColumn_above {raw : BitVec 8} (h : 193 ≤ raw.toNat) : clampColumn raw = 192 := by
  rw [clampColumn, if_neg (by omega), if_neg (by omega)]

/-- The first column lies from 1 to 192 (R123). -/
theorem clampColumn_bounds (raw : BitVec 8) : 1 ≤ clampColumn raw ∧ clampColumn raw ≤ 192 := by
  unfold clampColumn
  split
  · omega
  · split <;> omega

/-- The width lies from 8 to 32 (R123). -/
theorem clampWidth_bounds (raw : BitVec 5) : 8 ≤ clampWidth raw ∧ clampWidth raw ≤ 32 := by
  unfold clampWidth
  split <;> omega

/-- A station whose first column lies from 1 to 192 and whose width lies from 8 to 32 has from 1 to 32 columns (R123). -/
theorem Straps.effective_bounds {t : Straps} (hf : t.fcol ≤ 192) (hw : 8 ≤ t.width) (hw' : t.width ≤ 32) :
    1 ≤ t.effective ∧ t.effective ≤ 32 :=
  ⟨Nat.le_min.2 ⟨by omega, by omega⟩, Nat.le_trans (Nat.min_le_left _ _) hw'⟩

/-- Settles O37: the clamps by their ranges, and the columns from their bounds. -/
theorem strapsAreClamped : Obligations.StrapsAreClamped := by
  intro p t
  obtain ⟨hf, hf'⟩ : 1 ≤ t.fcol ∧ t.fcol ≤ 192 := clampColumn_bounds p.fcol
  obtain ⟨hw, hw'⟩ : 8 ≤ t.width ∧ t.width ≤ 32 := clampWidth_bounds p.wid
  obtain ⟨he, he'⟩ := Straps.effective_bounds hf' hw hw'
  exact ⟨fun h => (congrArg clampColumn h).trans clampColumn_zero, clampColumn_within, clampColumn_above,
    fun h => if_pos h, fun h => if_neg (Nat.not_le.2 h), rfl, he, he', hf, t.lastColumn_le hf'⟩

/-! ## The operations that keep the straps -/

theorem State.momentFrame.straps {s t : State} (h : s.momentFrame t) : t.straps = s.straps := by
  rw [h]

/-- A choice between two states with the same straps. -/
theorem State.ite_straps {c : Prop} [Decidable c] {s t : State} {r : Straps} (hs : s.straps = r) (ht : t.straps = r) :
    (if c then s else t).straps = r := by
  split
  · exact hs
  · exact ht

@[simp] theorem State.receive_straps (s : State) (b : PortByte) : (s.receive b).straps = s.straps := by
  unfold State.receive
  split
  · exact (State.parse_parserFrame _).moment.straps
  · rfl

@[simp] theorem State.strobeRecord_straps (s : State) (b : PortByte) : (s.strobeRecord b).straps = s.straps := by
  unfold State.strobeRecord
  split <;> simp

@[simp] theorem State.departOldest_straps (s : State) : s.departOldest.straps = s.straps := by
  obtain ⟨-, h⟩ | ⟨c, rest, -, h⟩ := s.departOldest_cases <;> rw [h]

@[simp] theorem State.freeOldestBuffer_straps (s : State) : s.freeOldestBuffer.straps = s.straps := by
  obtain ⟨-, h⟩ | ⟨c, rest, -, h⟩ := s.freeOldestBuffer_cases <;> rw [h]

@[simp] theorem State.withdraw_straps (s : State) : s.withdraw.straps = s.straps := by
  unfold State.withdraw
  split <;> rfl

@[simp] theorem State.applyStops_straps (s : State) : s.applyStops.straps = s.straps := by
  rw [State.applyStops_eq]
  cases s.stops.paper <;> rfl

@[simp] theorem State.addStop_straps (s : State) (t : Stop) : (s.addStop t).straps = s.straps := by
  obtain ⟨-, h⟩ | ⟨m, -, -, h⟩ | ⟨m, -, -, h⟩ := s.addStop_cases t <;> simp [h]

@[simp] theorem State.applyPlan_straps (s : State) : s.applyPlan.straps = s.straps := by
  unfold State.applyPlan
  split <;> rfl

@[simp] theorem State.conclude_straps (s : State) : s.conclude.straps = s.straps := by
  unfold State.conclude
  split
  · dsimp only
    split <;> simp
  · rfl

@[simp] theorem State.abandonMotion_straps (s : State) : s.abandonMotion.straps = s.straps := by
  unfold State.abandonMotion
  split
  · split <;> simp
  · rfl

@[simp] theorem State.removeComposites_straps (s : State) (fires : Bool) : (s.removeComposites fires).straps = s.straps := by
  obtain ⟨-, h⟩ | ⟨m, -, -, h⟩ | ⟨m, -, -, -, h⟩ | ⟨m, c, rest, -, -, -, -, h⟩ := s.removeComposites_cases fires <;> rw [h]
  · rfl
  · cases fires <;> rfl

/-- The state of a station whose bar is broken, before the faults of it are recorded (R21, R64, R138). -/
def State.barDropped (s : State) : State :=
  { s with
    queue := [], counter := 0, render := none, inputBuffer := [], parser := s.idleParser, stops := {}
    bufA := s.bufA.free, bufB := s.bufB.free
    motion := none, plan := none, stepDrive := .held, frameDelay := none, formingInterval := none
    mode := .forming }

/-- The station has a motion that has taken a step (R138). -/
def State.hasStepped (s : State) : Bool :=
  match s.motion with
  | some m => decide (1 ≤ m.steps)
  | none => false

theorem State.hasStepped_iff (s : State) : s.hasStepped = true ↔ ∃ m, s.motion = some m ∧ 1 ≤ m.steps := by
  cases hm : s.motion <;> simp [State.hasStepped, hm]

/-- A broken bar drops everything in hand and records BAR BROKEN, after FRAME SKEW where the motion had stepped (R64, R138). -/
theorem State.breakBar_eq (s : State) :
    s.breakBar =
      (if s.hasStepped then s.barDropped.recordFault .frameSkew else s.barDropped).recordFault .barBroken := rfl

@[simp] theorem State.breakBar_straps (s : State) : s.breakBar.straps = s.straps := by
  rw [State.breakBar_eq, State.recordFault_straps]
  exact State.ite_straps rfl rfl

@[simp] theorem State.portReset_straps (s : State) : s.portReset.straps = s.straps := by simp [State.portReset]

@[simp] theorem State.readSensors_straps (s : State) : s.readSensors.straps = s.straps := by
  have h : (if s.inputs.coverClosed then s else s.recordFault .coverOpen).straps = s.straps := by split <;> rfl
  unfold State.readSensors
  dsimp only
  split
  · exact h
  · rw [State.addStop_straps, h]

@[simp] theorem State.stopFeed_straps (s : State) : s.stopFeed.straps = s.straps := by
  unfold State.stopFeed
  split
  · split <;> simp
  · rfl

@[simp] theorem State.stopKey_straps (s : State) : s.stopKey.straps = s.straps := by
  unfold State.stopKey
  split <;> simp

@[simp] theorem State.holdOrder_straps (s : State) : s.holdOrder.straps = s.straps := by
  unfold State.holdOrder
  split <;> simp

@[simp] theorem State.discardOrder_straps (s : State) : s.discardOrder.straps = s.straps := by
  unfold State.discardOrder
  dsimp only
  split <;> simp

/-- A control order keeps the straps where both its effects do. -/
theorem strobeControl_straps {forming acts : State → State} (hf : ∀ s, (forming s).straps = s.straps)
    (ha : ∀ s, (acts s).straps = s.straps) (s : State) : (strobeControl forming acts s).straps = s.straps := by
  unfold strobeControl
  dsimp only
  split
  · split
    · simp [ha]
    · simp [hf]
  · simp

@[simp] theorem controlStrobe_straps (c : ControlOrder) (s : State) : (controlStrobe c s).straps = s.straps := by
  cases c with
  | hold => exact strobeControl_straps (fun _ => rfl) State.holdOrder_straps s
  | discard =>
    exact strobeControl_straps (forming := State.removeFaults discardClears) (fun _ => rfl) State.discardOrder_straps s
  | resume => exact strobeControl_straps (acts := State.resumeOrder) (fun _ => rfl) (fun _ => rfl) s
  | sense =>
    exact strobeControl_straps (forming := State.senseOrder) (acts := State.senseOrder) (fun _ => rfl) (fun _ => rfl) s

@[simp] theorem strobeOrder_straps (v : Byte) (s : State) : (strobeOrder v s).straps = s.straps := by
  unfold strobeOrder
  split <;> simp

/-! ## The commands -/

/-- The straps of the state that an outcome goes on in. -/
def nextStraps : Host.Outcome State Fault Refusal → Option Straps
  | .next t => some t.straps
  | .fault _ => none
  | .refused _ => none

theorem nextStraps_next {t : State} {r : Straps} (h : t.straps = r) : nextStraps (.next t) = some r := congrArg some h

theorem nextStraps_ite {c : Prop} [Decidable c] {o o' : Host.Outcome State Fault Refusal} {r : Option Straps}
    (h : nextStraps o = r) (h' : nextStraps o' = r) : nextStraps (if c then o else o') = r := by
  split
  · exact h
  · exact h'

/-- What an event does, it does after the steps due (log 5). -/
theorem nextStraps_ofCatchUp {s : State} {o : Host.Outcome State Fault Refusal}
    (h : nextStraps o = some s.catchUp.straps) : nextStraps o = some s.straps := by
  rw [h, State.catchUp_straps]

section Commands
variable (s : State)

theorem execArbitrationRead_straps (p : Peers) : nextStraps (execArbitrationRead p s) = some s.straps := by
  refine nextStraps_ofCatchUp ?_
  unfold execArbitrationRead
  dsimp only
  split
  · exact nextStraps_ite rfl rfl
  · rfl

theorem execSenseRecordRead_straps : nextStraps (execSenseRecordRead s) = some s.straps := by
  refine nextStraps_ofCatchUp ?_
  unfold execSenseRecordRead
  dsimp only
  split
  · exact nextStraps_ite (nextStraps_next (State.ite_straps rfl rfl)) rfl
  · rfl

theorem execStartIntervalExpiry_straps : nextStraps (execStartIntervalExpiry s) = some s.straps := by
  refine nextStraps_ofCatchUp ?_
  unfold execStartIntervalExpiry
  dsimp only
  split <;> rfl

theorem execFormingIntervalExpiry_straps : nextStraps (execFormingIntervalExpiry s) = some s.straps := by
  refine nextStraps_ofCatchUp ?_
  unfold execFormingIntervalExpiry
  dsimp only
  split
  · exact nextStraps_next (State.readSensors_straps _)
  · rfl

theorem execStep_straps : nextStraps (execStep s) = some s.straps := by
  refine nextStraps_ofCatchUp ?_
  unfold execStep
  refine nextStraps_ite rfl ?_
  split
  · exact nextStraps_ite rfl rfl
  · rfl

theorem execStepPulseEnd_straps : nextStraps (execStepPulseEnd s) = some s.straps := by
  refine nextStraps_ofCatchUp ?_
  unfold execStepPulseEnd
  dsimp only
  split <;> rfl

theorem execFirePulseStart_straps : nextStraps (execFirePulseStart s) = some s.straps := by
  refine nextStraps_ofCatchUp ?_
  unfold execFirePulseStart
  dsimp only
  split
  · split
    · exact nextStraps_ite rfl rfl
    · rfl
  · rfl

theorem execFirePulseEnd_straps : nextStraps (execFirePulseEnd s) = some s.straps := by
  refine nextStraps_ofCatchUp ?_
  unfold execFirePulseEnd
  dsimp only
  split
  · split
    · exact nextStraps_next (State.ite_straps (State.freeOldestBuffer_straps _) rfl)
    · rfl
  · rfl

theorem execFrameHoldDelay_straps : nextStraps (execFrameHoldDelay s) = some s.straps := by
  refine nextStraps_ofCatchUp ?_
  unfold execFrameHoldDelay
  dsimp only
  split <;> rfl

theorem execFrameTimerExpiry_straps : nextStraps (execFrameTimerExpiry s) = some s.straps := by
  refine nextStraps_ofCatchUp ?_
  unfold execFrameTimerExpiry
  dsimp only
  split
  · split <;> rfl
  · rfl

theorem execRenderCompletion_straps : nextStraps (execRenderCompletion s) = some s.straps := by
  refine nextStraps_ofCatchUp ?_
  unfold execRenderCompletion
  dsimp only
  split <;> rfl

theorem execKtof_straps : nextStraps (execKtof s) = some s.straps := by
  have restarted (u : State) : (u.abandonMotion.topOfForm.removeFaults tofClears).straps = u.straps :=
    u.abandonMotion_straps
  exact nextStraps_ofCatchUp (nextStraps_ite rfl (nextStraps_ite
    (nextStraps_next (State.ite_straps ((State.applyStops_straps _).trans (restarted _)) (restarted _))) rfl))

/-- Every command but a full reset and its release goes on with the straps as they were (R122). -/
theorem nextStraps_exec {i : Instr} (hf : i ≠ .fullReset) (hr : ∀ pins, i ≠ .resetRelease pins) :
    nextStraps (exec i s) = some s.straps := by
  cases i with
  | fullReset => exact absurd rfl hf
  | resetRelease pins => exact absurd rfl (hr pins)
  | printSpace | printSkip | moveSpace | moveSkip | loadForm | loadCodes | loadGlyph | checkBlank | checkBlock
  | unknownOrder | hold | discard | resume | sense => exact nextStraps_next (strobeOrder_straps _ s)
  | dataByte => exact nextStraps_ofCatchUp (nextStraps_next (State.strobeRecord_straps _ _))
  | pstrFall dir => cases dir <;> exact nextStraps_ofCatchUp rfl
  | arbitrationRead p => exact execArbitrationRead_straps s p
  | senseRecordRead => exact execSenseRecordRead_straps s
  | pinitFall => exact nextStraps_ofCatchUp rfl
  | pinit => exact nextStraps_ofCatchUp (nextStraps_next (State.ite_straps (State.portReset_straps _) rfl))
  | startIntervalExpiry => exact execStartIntervalExpiry_straps s
  | formingIntervalExpiry => exact execFormingIntervalExpiry_straps s
  | joinFall =>
    exact nextStraps_ofCatchUp (nextStraps_ite rfl (nextStraps_ite (nextStraps_next (State.breakBar_straps _))
      (nextStraps_ite rfl rfl)))
  | joinRise | coverClosed | paperPresent => exact nextStraps_ofCatchUp (nextStraps_ite rfl rfl)
  | coverOpen | kstart | kfeed => exact nextStraps_ofCatchUp (nextStraps_ite rfl (nextStraps_next (State.ite_straps rfl rfl)))
  | paperAbsent =>
    exact nextStraps_ofCatchUp (nextStraps_ite rfl (nextStraps_next (State.ite_straps (State.addStop_straps _ _) rfl)))
  | kstop => exact nextStraps_ofCatchUp (nextStraps_ite rfl (nextStraps_next (State.stopKey_straps _)))
  | ktof => exact execKtof_straps s
  | faultFall | stepRelease => exact nextStraps_ofCatchUp (nextStraps_next (State.ite_straps rfl rfl))
  | faultRise =>
    exact nextStraps_ofCatchUp (nextStraps_ite (nextStraps_next (State.ite_straps (State.conclude_straps _) rfl)) rfl)
  | step => exact execStep_straps s
  | frameEvent => exact nextStraps_ofCatchUp (nextStraps_ite (nextStraps_next s.catchUp.conclude_straps) rfl)
  | stepPulseEnd => exact execStepPulseEnd_straps s
  | firePulseStart => exact execFirePulseStart_straps s
  | firePulseEnd => exact execFirePulseEnd_straps s
  | frameHoldDelay => exact execFrameHoldDelay_straps s
  | frameTimerExpiry => exact execFrameTimerExpiry_straps s
  | motionStart => exact nextStraps_next s.startMotion_momentFrame.straps
  | renderStart => exact nextStraps_next s.startRender_momentFrame.straps
  | renderCompletion => exact execRenderCompletion_straps s
  | placeGrant => exact nextStraps_next s.grantPlace_momentFrame.straps
  | drainEnd => exact nextStraps_next s.endDrain_momentFrame.straps

end Commands

/-- Settles O11: the straps of the next state are those of `nextStraps_exec`. -/
theorem strapsStayAsSampled : Obligations.StrapsStayAsSampled := by
  intro i s t hf hr h
  have hs := nextStraps_exec s hf hr
  rw [h] at hs
  exact Option.some.inj hs

end Sys2Proof.Machine
end

section
/-! Station modes under the control orders and the keys (R3, R58, R59, R61, R131, R132, R134 to R136): a stop by the moment at which
it comes, the faults that RESUME and KSTART remove, and the orders and keys themselves. Settles O28, O30 and O43. -/

namespace Sys2Proof.Machine

/-! ## A stop, by the moment at which it comes -/

section Stops
variable {s : State} {m : Motion}

/-- The mode that a stop alone leaves a station in (R58). -/
def Stop.modeAfter (t : Stop) (m : Mode) : Mode :=
  match t with
  | .hold | .discard => .held
  | .kstop => .stopped
  | .paper => m

/-- A stop alone, other than PAPER, sets the mode and records no fault (R58). -/
theorem State.applyStops_alone {t : Stop} (ht : t ≠ .paper) (hs : s.stops = {}) :
    ({ s with stops := s.stops.add t } : State).applyStops = { s with mode := t.modeAfter s.mode } := by
  rw [hs]
  cases t with
  | paper => exact absurd rfl ht
  | hold | discard | kstop => rfl

/-- At a boundary a stop applies at once (R58). -/
theorem State.addStop_of_boundary (t : Stop) (hm : s.motion = none) :
    s.addStop t = ({ s with stops := s.stops.add t } : State).applyStops := by
  rw [State.addStop, hm]

/-- A withdrawal neither reads nor changes the pending stops (R59). -/
theorem State.withdraw_with_stops (s : State) (x : StopSet) :
    ({ s with stops := x } : State).withdraw = { s.withdraw with stops := x } := by
  obtain hm | ⟨m, hm⟩ := Option.eq_none_or_eq_some s.motion
  · simp [State.withdraw, hm]
  · rw [State.withdraw_of_motion hm]
    exact State.withdraw_of_motion (s := { s with stops := x }) hm

/-- At s = 0 a stop applies at once, through withdrawal (R59). -/
theorem State.addStop_of_unstepped (t : Stop) (hm : s.motion = some m) (h : m.steps = 0) :
    s.addStop t = ({ s.withdraw with stops := s.stops.add t } : State).applyStops := by
  obtain ⟨hnone, -⟩ | ⟨m', -, -, e⟩ | ⟨m', hm', h1, -⟩ := s.addStop_cases t
  · exact absurd (hnone.symm.trans hm) nofun
  · rw [e, State.withdraw_with_stops]
  · cases hm.symm.trans hm'
    omega

/-- After the first step a stop pends (R58, R131). -/
theorem State.addStop_of_stepped (t : Stop) (hm : s.motion = some m) (h : 1 ≤ m.steps) :
    s.addStop t = { s with stops := s.stops.add t } := by
  rw [State.addStop, hm]
  exact if_neg (Nat.ne_of_gt h)

/-- The withdrawal of a line's motion: its composite is READY again (R59). -/
theorem State.withdraw_line {c : Composite} {rest : List Composite} (hm : s.motion = some m) (hf : m.feed = false)
    (hq : s.queue = c :: rest) : s.withdraw = { s.dropMotion with queue := { c with state := .ready } :: rest } := by
  rw [State.withdraw_of_motion hm, hf, hq]
  rfl

/-- The withdrawal of a FEED (R59, R61). -/
theorem State.withdraw_feed (hm : s.motion = some m) (hf : m.feed = true) : s.withdraw = s.dropMotion := by
  rw [State.withdraw_of_motion hm, hf]
  rfl

theorem State.withdraw_stops (s : State) : s.withdraw.stops = s.stops := by
  unfold State.withdraw
  split <;> rfl

theorem State.withdraw_mode (s : State) : s.withdraw.mode = s.mode := by
  unfold State.withdraw
  split <;> rfl

/-- A stop alone, other than PAPER, at a boundary. -/
theorem State.addStop_alone_of_boundary (t : Stop) (ht : t ≠ .paper) (hs : s.stops = {}) (hm : s.motion = none) :
    s.addStop t = { s with mode := t.modeAfter s.mode } :=
  (State.addStop_of_boundary t hm).trans (State.applyStops_alone ht hs)

/-- A stop alone, other than PAPER, at s = 0. -/
theorem State.addStop_alone_of_unstepped (t : Stop) (ht : t ≠ .paper) (hs : s.stops = {}) (hm : s.motion = some m)
    (h : m.steps = 0) : s.addStop t = { s.withdraw with mode := t.modeAfter s.mode } := by
  rw [State.addStop_of_unstepped t hm h, ← s.withdraw_stops, State.applyStops_alone ht (s.withdraw_stops.trans hs),
    State.withdraw_mode]

end Stops

/-! ## The faults that RESUME and KSTART remove -/

/-- The removable faults as the statements write them (R134, R135). -/
theorem Inputs.resumeClears_eq (i : Inputs) (f : FaultKind) :
    i.resumeClears f = (f == .dataCheck || (f == .coverOpen && i.coverClosed) || (f == .paperOut && i.paperPresent)) := by
  cases f with
  | coverOpen => exact (Bool.or_false _).symm
  | frameSkew | inputOverrun | barBroken | paperOut | dataCheck => rfl

/-- DATA CHECK is among the faults removed, so its removal clears BLOCKED (R3, R134, R135). -/
theorem State.removeFaults_resumeClears (s : State) (i : Inputs) :
    s.removeFaults i.resumeClears =
      { s with
        faults := s.faults.filter fun f =>
          !(f == .dataCheck || (f == .coverOpen && i.coverClosed) || (f == .paperOut && i.paperPresent))
        queue :=
          if s.faults.contains .dataCheck then
            s.queue.map fun c => { c with flags := { c.flags with blocked := false } }
          else s.queue } := by
  have hclears : i.resumeClears = fun f =>
      f == .dataCheck || (f == .coverOpen && i.coverClosed) || (f == .paperOut && i.paperPresent) :=
    funext i.resumeClears_eq
  have hdata : i.resumeClears .dataCheck = true := rfl
  rw [State.removeFaults, hdata, Bool.and_true, hclears]
  rfl

/-! ## The commands at a station with nothing due -/

section Quiet
variable {s : State}

/-- HOLD at a station that takes the strobe (R132, R154). -/
theorem exec_hold_of_answers (hq : s.quiet = true) (ha : s.answers = true) :
    exec .hold s = .next (if s.mode.working then s.strobed.holdOrder else s.strobed) :=
  congrArg Host.Outcome.next
    ((strobeOrder_control .hold s).trans (strobeControl_taken (fun t => t) State.holdOrder hq ha))

/-- RESUME at a station that takes the strobe (R134, R154). -/
theorem exec_resume_of_answers (hq : s.quiet = true) (ha : s.answers = true) :
    exec .resume s = .next (if s.mode.working then s.strobed.resumeOrder else s.strobed) :=
  congrArg Host.Outcome.next
    ((strobeOrder_control .resume s).trans (strobeControl_taken (fun t => t) State.resumeOrder hq ha))

/-- A write strobe that is not taken releases the data lines and does nothing more (R154, R169). -/
theorem State.writeRise_of_silent (ha : s.answers = false) : s.writeRise = { s with strobe := .none, pd := 0xFF } := by
  rw [State.writeRise, ha]
  rfl

/-- HOLD in ONLINE adds its stop (R132). -/
theorem exec_hold_of_online (hq : s.quiet = true) (ha : s.answers = true) (ho : s.mode = .online) :
    exec .hold s = .next (s.strobed.addStop .hold) := by
  have hadd : s.strobed.holdOrder = s.strobed.addStop .hold := if_pos ho
  rw [exec_hold_of_answers hq ha, ho, hadd]
  rfl

/-- HOLD outside ONLINE is disregarded (R132). -/
theorem exec_hold_of_not_online (hq : s.quiet = true) (ha : s.answers = true) (ho : s.mode ≠ .online) :
    exec .hold s = .next s.strobed := by
  have hidle : s.strobed.holdOrder = s.strobed := if_neg ho
  rw [exec_hold_of_answers hq ha, hidle, ite_self]

/-- KSTART in STARTING and FORMING changes the accepted level alone (R135, R140). -/
theorem exec_kstart_of_not_working (hq : s.quiet = true) (hr : s.rstLow = false) (hw : s.mode.working = false) :
    exec .kstart s = .next { s with inputs := { s.inputs with kstart := true } } := by
  show execKstart s = _
  simp [execKstart, State.catchUp_of_quiet hq, hr, hw]

/-- The accepted press of KSTOP (R136, R140). -/
def State.kstopPressed (s : State) : State := { s with inputs := { s.inputs with kstop := true } }

theorem exec_kstop_of_released (hq : s.quiet = true) (hr : s.rstLow = false) :
    exec .kstop s = .next s.kstopPressed.stopKey := by
  show execKstop s = _
  simp [execKstop, State.catchUp_of_quiet hq, hr, State.kstopPressed]

theorem State.stopKey_of_online (h : s.mode = .online) : s.stopKey = s.addStop .kstop := by rw [State.stopKey, h]

theorem State.stopKey_of_stopped (h : s.mode = .stopped) : s.stopKey = s.stopFeed := by rw [State.stopKey, h]

theorem State.stopKey_of_held (h : s.mode = .held) : s.stopKey = { s with mode := .stopped } := by rw [State.stopKey, h]

/-- KSTOP has no effect in STARTING and FORMING (R136). -/
theorem State.stopKey_of_not_working (h : s.mode.working = false) : s.stopKey = s := by
  rcases (Mode.working_eq_false_iff _).1 h with h | h <;> rw [State.stopKey, h]

/-- In STOPPED a motion at s = 0 is withdrawn (R61). -/
theorem State.stopFeed_of_unstepped {m : Motion} (hm : s.motion = some m) (h : m.steps = 0) : s.stopFeed = s.withdraw := by
  rw [State.stopFeed, hm]
  exact if_pos h

/-- In STOPPED a station at a boundary, or with a motion that has stepped, goes on (R61). -/
theorem State.stopFeed_of_not_unstepped (h : ∀ m, s.motion = some m → 1 ≤ m.steps) : s.stopFeed = s := by
  unfold State.stopFeed
  split
  next m hm => exact if_neg (Nat.ne_of_gt (h m hm))
  next => rfl

end Quiet

/-! ## The statements -/

/-- Settles O28: in ONLINE the HOLD stop by the moment at which it comes, and elsewhere nothing. -/
theorem holdStopsAtTheBoundary : Obligations.HoldStopsAtTheBoundary := by
  refine ⟨fun s hq ha => ?_, fun s hq ha => ⟨fun ho hs hm => ?_, fun m c rest ho hs hm h0 hf hc => ?_,
    fun m ho hs hm h0 hf => ?_, fun m ho hm h1 => ?_, exec_hold_of_not_online hq ha⟩⟩
  · exact congrArg Host.Outcome.next ((strobeOrder_control .hold s).trans
      ((strobeControl_passed (fun t => t) State.holdOrder hq ha).trans (State.writeRise_of_silent ha)))
  · rw [exec_hold_of_online hq ha ho, State.addStop_alone_of_boundary (s := s.strobed) .hold (by decide) hs hm]
    rfl
  · rw [exec_hold_of_online hq ha ho, State.addStop_alone_of_unstepped (s := s.strobed) .hold (by decide) hs hm h0,
      State.withdraw_line (s := s.strobed) hm hf hc]
    rfl
  · rw [exec_hold_of_online hq ha ho, State.addStop_alone_of_unstepped (s := s.strobed) .hold (by decide) hs hm h0,
      State.withdraw_feed (s := s.strobed) hm hf]
    rfl
  · rw [exec_hold_of_online hq ha ho, State.addStop_of_stepped (s := s.strobed) _ hm h1]
    rfl

/-- Settles O30: the faults removed are those of `State.removeFaults_resumeClears`. -/
theorem resumeClearsAndReleases : Obligations.ResumeClearsAndReleases := by
  refine ⟨fun s hq ha => ?_, fun s hq ha => ⟨fun hw => ?_, fun hf => ?_⟩⟩
  · exact congrArg Host.Outcome.next ((strobeOrder_control .resume s).trans
      ((strobeControl_passed (fun t => t) State.resumeOrder hq ha).trans (State.writeRise_of_silent ha)))
  · rw [exec_resume_of_answers hq ha, hw, if_pos rfl, State.resumeOrder, State.removeFaults_resumeClears]
    rfl
  · rw [exec_resume_of_answers hq ha, hf]
    rfl

/-- Settles O43: each key at a working station, by the mode and by the moment in the motion. -/
theorem keysStartAndStop : Obligations.KeysStartAndStop := by
  intro s hq hr
  have hkstop := exec_kstop_of_released hq hr
  have hdisregarded (hw : s.mode.working = false) : exec .kstop s = .next s.kstopPressed :=
    hkstop.trans (congrArg Host.Outcome.next (State.stopKey_of_not_working (s := s.kstopPressed) hw))
  have honline (ho : s.mode = .online) : exec .kstop s = .next (s.kstopPressed.addStop .kstop) :=
    hkstop.trans (congrArg Host.Outcome.next (State.stopKey_of_online (s := s.kstopPressed) ho))
  have hstopped (hs : s.mode = .stopped) : exec .kstop s = .next s.kstopPressed.stopFeed :=
    hkstop.trans (congrArg Host.Outcome.next (State.stopKey_of_stopped (s := s.kstopPressed) hs))
  refine ⟨fun hw => ?_, fun ho hm hs => ?_, fun m ho hm h1 => ?_, fun hh => ?_, fun m hs hm hf h0 => ?_,
    fun m c rest ho hs hm h0 hf hc => ?_, fun m ho hs hm h0 hf => ?_, fun hs hm => ?_, fun hsf => ?_⟩
  · rw [exec_kstart_of_working hq hr hw, State.startKey, State.removeFaults_resumeClears]
  · rw [honline ho, State.addStop_alone_of_boundary (s := s.kstopPressed) .kstop (by decide) hs hm]
    rfl
  · rw [honline ho, State.addStop_of_stepped (s := s.kstopPressed) _ hm h1]
    rfl
  · rw [hkstop, State.stopKey_of_held (s := s.kstopPressed) hh]
    rfl
  · rw [hstopped hs, State.stopFeed_of_unstepped (s := s.kstopPressed) hm h0,
      State.withdraw_feed (s := s.kstopPressed) hm hf]
    rfl
  · rw [honline ho, State.addStop_alone_of_unstepped (s := s.kstopPressed) .kstop (by decide) hs hm h0,
      State.withdraw_line (s := s.kstopPressed) hm hf hc]
    rfl
  · rw [honline ho, State.addStop_alone_of_unstepped (s := s.kstopPressed) .kstop (by decide) hs hm h0,
      State.withdraw_feed (s := s.kstopPressed) hm hf]
    rfl
  · have hgoing : ∀ m, s.motion = some m → 1 ≤ m.steps := by
      rintro m hm'
      obtain hnone | ⟨m', hsome, h1⟩ := hm
      · simp [hnone] at hm'
      · exact Option.some.inj (hsome.symm.trans hm') ▸ h1
    rw [hstopped hs, State.stopFeed_of_not_unstepped (s := s.kstopPressed) hgoing]
    rfl
  · have hw : s.mode.working = false := (Mode.working_eq_false_iff _).2 hsf
    exact ⟨exec_kstart_of_not_working hq hr hw, hdisregarded hw⟩

end Sys2Proof.Machine
end

section
/-! Full reset, the release of RST, and the forming and breaking of the bar (R21, R61, R64, R122, R125, R126, R137, R138, R140,
R145, R147, R159). Settles O5, O38, O39 and O40. -/

namespace Sys2Proof.Machine

/-! ## Full reset -/

/-- The reset state, with what a full reset keeps of a station (R125, log 23). -/
def State.fullyReset (s : State) : State :=
  { State.reset with
    clock := s.clock, faultLow := s.catchUp.faultLow, pinitLowSince := s.pinitLowSince, headLatch := s.headLatch
    pending := s.pending }

theorem exec_fullReset (s : State) : exec .fullReset s = .next s.fullyReset := by
  show execFullReset s = _
  simp only [execFullReset, State.fullyReset, State.catchUp_clock, State.catchUp_pinitLowSince,
    State.catchUp_headLatch, State.catchUp_pending]

/-- With RST low the station holds JOIN, FRAME and PRDY low and takes no strobe (R125, R154). -/
theorem State.lines_of_rstLow {s : State} (h : s.rstLow = true) :
    s.holdsJoin = true ∧ s.holdsFrame = true ∧ s.holdsPrdy = true ∧ s.answers = false :=
  ⟨s.holdsJoin_iff.2 (.inl h), s.holdsFrame_iff.2 (.inl h),
    s.holdsPrdy_iff.2 (.inr (.inr (.inr (.inr (.inr h))))), by simp [State.answers, h]⟩

/-- Settles O5: the lines follow from RST low, the rest from the reset state. -/
theorem fullResetFromAnyState : Obligations.FullResetFromAnyState := by
  intro s
  obtain ⟨hjoin, hframe, hprdy, hanswers⟩ := State.lines_of_rstLow (s := s.fullyReset) rfl
  exact ⟨_, exec_fullReset s, hjoin, rfl, hframe, hprdy, rfl, rfl, rfl, hanswers, rfl⟩

/-! ## The release of RST -/

section Quiet
variable {s : State}

/-- A release of an RST that is not low changes nothing (log 18). -/
theorem exec_resetRelease_of_released (p : StrapPins) (hq : s.quiet = true) (hr : s.rstLow = false) :
    exec (.resetRelease p) s = .next s := by
  show execResetRelease p s = _
  simp only [execResetRelease, State.catchUp_of_quiet hq, hr, Bool.false_eq_true, if_false]

/-- The release of RST samples the straps and begins the start interval (R122, R125). -/
theorem exec_resetRelease_of_reset (p : StrapPins) (hq : s.quiet = true) (hr : s.rstLow = true) :
    exec (.resetRelease p) s = .next
      { s with
        rstLow := false
        straps := .sample p
        mode := .starting
        inputs := {}
        startInterval := some s.clock
        pinitLowSince := s.pinitLowSince.map fun _ => s.clock } := by
  show execResetRelease p s = _
  unfold execResetRelease
  rw [State.catchUp_of_quiet hq]
  exact if_pos hr

/-- The commands that bring a change at an input filter (R140). -/
def changesInput : Instr → Bool
  | .coverOpen | .coverClosed | .paperAbsent | .paperPresent | .kstart | .kstop | .kfeed | .ktof | .joinRise | .joinFall => true
  | _ => false

/-- With RST low no input filter samples (R140). -/
theorem exec_changesInput_of_reset {i : Instr} (hi : changesInput i = true) (hq : s.quiet = true) (hr : s.rstLow = true) :
    exec i s = .next s := by
  have hnext : Host.Outcome.next s.catchUp = (.next s : Host.Outcome State Fault Refusal) :=
    congrArg Host.Outcome.next (State.catchUp_of_quiet hq)
  have hlow : s.catchUp.rstLow = true := s.catchUp_rstLow.trans hr
  cases i with
  | coverClosed | paperPresent | kstart | kstop | kfeed | ktof => exact (if_pos hlow).trans hnext
  | coverOpen | paperAbsent | joinRise | joinFall => exact (if_pos (.inl hlow)).trans hnext
  | _ => cases hi

end Quiet

/-- Settles O38: a release by the level of RST, and the filters' rows while it is low. -/
theorem releaseEntersStarting : Obligations.ReleaseEntersStarting := by
  refine ⟨fun s p hq hr => exec_resetRelease_of_released p hq hr, fun s i hq hr hi => ?_, fun s p hq hr => ?_⟩
  · have all : ∀ i ∈ ([.coverOpen, .coverClosed, .paperAbsent, .paperPresent, .kstart, .kstop, .kfeed, .ktof, .joinRise,
        .joinFall] : List Instr), changesInput i = true := by decide
    exact exec_changesInput_of_reset (all i hi) hq hr
  · rw [exec_resetRelease_of_reset p hq hr]
    cases s.pinitLowSince <;> rfl

/-! ## The bar forms -/

/-- A fault recorded at a boundary, with STEP held (R141, R142). -/
theorem State.recordFault_at_boundary {s : State} (f : FaultKind) (hm : s.motion = none) (hd : s.stepDrive = .held) :
    s.recordFault f = { s with faults := addOnce f s.faults, faultLow := true } := by
  rw [State.recordFault, State.cutoff_of_boundary hm, ← hd]

/-- A PAPER stop alone at a boundary records PAPER OUT (R58, R147). -/
theorem State.addStop_paper_of_boundary {s : State} (hm : s.motion = none) (hs : s.stops = {}) :
    s.addStop .paper = s.recordFault .paperOut := by
  have hset : ({ s with stops := {} } : State) = s := by rw [← hs]
  rw [State.addStop_of_boundary _ hm, hs]
  exact congrArg (State.recordFault .paperOut) hset

/-- The sensors as they are read at a boundary: COVER OPEN, then PAPER OUT (R145, R147). -/
theorem State.readSensors_records {s : State} (hm : s.motion = none) (hs : s.stops = {}) (hd : s.stepDrive = .held) :
    s.readSensors =
      { s with
        faults :=
          let fs := if s.inputs.coverClosed then s.faults else addOnce .coverOpen s.faults
          if s.inputs.paperPresent then fs else addOnce .paperOut fs
        faultLow := s.faultLow || !s.inputs.coverClosed || !s.inputs.paperPresent } := by
  obtain ⟨t, ht, htm, hts, htd, hte⟩ : ∃ t : State, (if s.inputs.coverClosed then s else s.recordFault .coverOpen) = t ∧
      t.motion = none ∧ t.stops = {} ∧ t.stepDrive = .held ∧
      t = { s with
        faults := if s.inputs.coverClosed then s.faults else addOnce .coverOpen s.faults
        faultLow := s.faultLow || !s.inputs.coverClosed } := by
    cases s.inputs.coverClosed with
    | true => exact ⟨s, rfl, hm, hs, hd, by simp⟩
    | false => exact ⟨_, rfl, by simp [hm], hs, rfl, (State.recordFault_at_boundary _ hm hd).trans (by simp)⟩
  have hread : s.readSensors = if s.inputs.paperPresent then t else t.addStop .paper := congrArg
    (fun t : State => if s.inputs.paperPresent then t else t.addStop .paper) ht
  rw [hread, State.addStop_paper_of_boundary htm hts, State.recordFault_at_boundary _ htm htd, hte]
  cases s.inputs.paperPresent <;> simp

/-- A rise of JOIN that is not accepted yet (R126, log 27). -/
theorem exec_joinRise_of_low {s : State} (hq : s.quiet = true) (hr : s.rstLow = false) (hj : s.inputs.joinHigh = false) :
    exec .joinRise s = .next
      { s with
        inputs := { s.inputs with joinHigh := true }
        formingInterval := if s.mode = .forming then some s.clock else s.formingInterval } := by
  show execJoinRise s = _
  unfold execJoinRise
  rw [State.catchUp_of_quiet hq]
  exact if_neg (by simp [hr, hj])

/-- A rise of JOIN that is accepted already (log 18). -/
theorem exec_joinRise_of_high {s : State} (hq : s.quiet = true) (hj : s.inputs.joinHigh = true) :
    exec .joinRise s = .next s := by
  show execJoinRise s = _
  unfold execJoinRise
  rw [State.catchUp_of_quiet hq]
  exact if_pos (.inr hj)

/-- Settles O39: the two intervals run out, and JOIN rises. -/
theorem theBarForms : Obligations.TheBarForms := by
  refine fun s t0 hq hr => ⟨exec_startIntervalExpiry_of_running hq, exec_joinRise_of_low hq hr, exec_joinRise_of_high hq,
    fun h hm hs hd => ?_⟩
  rw [exec_formingIntervalExpiry_of_running hq h]
  exact congrArg Host.Outcome.next (State.readSensors_records
    (s := { s with clock := max s.clock (t0 + 50000), formingInterval := none, mode := .stopped }) hm hs hd)

/-! ## The bar is broken -/

/-- FRAME SKEW is recorded before BAR BROKEN where the motion had stepped (R64, R138). -/
theorem State.breakBar_of_stepped {s : State} {m : Motion} (hm : s.motion = some m) (h : 1 ≤ m.steps) :
    s.breakBar =
      { s.barDropped with faults := addOnce .barBroken (addOnce .frameSkew s.faults), faultLow := true } := by
  have hskew : s.barDropped.recordFault .frameSkew =
      { s.barDropped with faults := addOnce .frameSkew s.faults, faultLow := true } :=
    State.recordFault_at_boundary _ rfl rfl
  rw [State.breakBar_eq, if_pos (s.hasStepped_iff.2 ⟨m, hm, h⟩), hskew]
  exact State.recordFault_at_boundary _ rfl rfl

/-- BAR BROKEN alone is recorded at a boundary, and for a motion at s = 0 (R138). -/
theorem State.breakBar_of_unstepped {s : State} (h : ∀ m, s.motion = some m → m.steps = 0) :
    s.breakBar = { s.barDropped with faults := addOnce .barBroken s.faults, faultLow := true } := by
  have hnot : ¬s.hasStepped = true := by
    rw [State.hasStepped_iff]
    rintro ⟨m, hm, h1⟩
    exact Nat.ne_of_gt h1 (h m hm)
  rw [State.breakBar_eq, if_neg hnot]
  exact State.recordFault_at_boundary _ rfl rfl

/-- The accepted fall of JOIN (R137, R140). -/
def State.joinFallen (s : State) : State := { s with inputs := { s.inputs with joinHigh := false } }

/-- A fall of JOIN that is accepted already (log 18). -/
theorem exec_joinFall_of_low {s : State} (hq : s.quiet = true) (hj : s.inputs.joinHigh = false) :
    exec .joinFall s = .next s := by
  show execJoinFall s = _
  unfold execJoinFall
  rw [State.catchUp_of_quiet hq]
  exact if_pos (.inr hj)

/-- A fall of JOIN that is not accepted yet acts by the mode (R137). -/
theorem exec_joinFall_of_high {s : State} (hq : s.quiet = true) (hr : s.rstLow = false) (hj : s.inputs.joinHigh = true) :
    exec .joinFall s = .next
      (if s.mode.working then s.joinFallen.breakBar
        else if s.mode = .forming then { s.joinFallen with formingInterval := none } else s.joinFallen) := by
  show execJoinFall s = _
  unfold execJoinFall
  rw [State.catchUp_of_quiet hq]
  refine (if_neg (by simp [hr, hj])).trans ?_
  rw [apply_ite Host.Outcome.next, apply_ite Host.Outcome.next]
  rfl

/-- Settles O40: the fall by the mode, and a broken bar by the moment in the motion. -/
theorem joinFallBreaksTheBar : Obligations.JoinFallBreaksTheBar := by
  refine ⟨fun s hq hj => exec_joinFall_of_low hq hj, fun s hq hr hj => ?_⟩
  intro broken
  have hfall := exec_joinFall_of_high hq hr hj
  have hunstepped (hw : s.mode.working = true) (h : ∀ m, s.motion = some m → m.steps = 0) :
      exec .joinFall s = .next (broken (addOnce .barBroken s.faults)) := by
    rw [hfall, if_pos hw, State.breakBar_of_unstepped (s := s.joinFallen) h]
    rfl
  refine ⟨fun m hw hm h1 => ?_, fun m hw hm h0 => hunstepped hw fun m' hm' => ?_,
    fun hw hm => hunstepped hw fun m' hm' => ?_, fun hf => ?_, fun hs => ?_⟩
  · rw [hfall, if_pos hw, State.breakBar_of_stepped (s := s.joinFallen) hm h1]
    rfl
  · exact Option.some.inj (hm.symm.trans hm') ▸ h0
  · exact absurd (hm.symm.trans hm') nofun
  · have hw : ¬s.mode.working = true := by rw [hf]; decide
    rw [hfall, if_neg hw, if_pos hf]
    rfl
  · have hw : ¬s.mode.working = true := by rw [hs]; decide
    rw [hfall, if_neg hw, if_neg (by rw [hs]; decide)]
    rfl

end Sys2Proof.Machine
end

section
/-! The fault set, the level of FAULT and the warning set (R141, R142, R143, R161): the changes they can undergo, that a step makes no
others, and what the changes keep. Settles O8 and O9. -/

namespace Sys2Proof.Machine

/-! ## The changes -/

/-- The fault set, the level of FAULT as the station has taken it, and the warning set (R141, R143, R161). -/
structure Alarms where
  faults : List FaultKind
  low : Bool
  warnings : List Warning

def State.alarms (s : State) : Alarms := { faults := s.faults, low := s.faultLow, warnings := s.warnings }

/-- Everything that can happen to the two sets and to FAULT at once. -/
inductive Alarms.Change : Alarms → Alarms → Prop
  /-- A fault is recorded (R141, R142). -/
  | record (f : FaultKind) (x : Alarms) : Change x { x with faults := addOnce f x.faults, low := true }
  /-- Faults are removed (R133 to R135, R139, R152). -/
  | remove (keep : FaultKind → Bool) (x : Alarms) : Change x { x with faults := x.faults.filter keep }
  /-- A warning is raised (R161). -/
  | raise (w : Warning) (x : Alarms) : Change x { x with warnings := addOnce w x.warnings }
  /-- Warnings are consumed (R167). -/
  | consume (keep : Warning → Bool) (x : Alarms) : Change x { x with warnings := x.warnings.filter keep }
  /-- FAULT falls (R143). -/
  | fall (x : Alarms) : Change x { x with low := true }
  /-- FAULT rises, at a station that does not hold it low itself (R142, R143). -/
  | rise (x : Alarms) (h : x.faults = []) : Change x { x with low := false }
  /-- Full reset (R125, R141, R161). -/
  | reset (x : Alarms) : Change x { x with faults := [], warnings := [.stationStarted] }

/-- Any number of changes, one after the other. -/
inductive Alarms.Reaches (x : Alarms) : Alarms → Prop
  | refl : Alarms.Reaches x x
  | step {y z : Alarms} (h : Alarms.Reaches x y) (c : Alarms.Change y z) : Alarms.Reaches x z

theorem Alarms.Reaches.trans {x y z : Alarms} (h : Alarms.Reaches x y) (g : Alarms.Reaches y z) : Alarms.Reaches x z := by
  induction g with
  | refl => exact h
  | step _ c ih => exact ih.step c

/-- What every change keeps, any number of them keeps. -/
theorem Alarms.Reaches.keeps {x y : Alarms} {P : Alarms → Prop} (hP : ∀ x y, Alarms.Change x y → P x → P y)
    (h : Alarms.Reaches x y) (hx : P x) : P y := by
  induction h with
  | refl => exact hx
  | step _ c ih => exact hP _ _ c ih

/-- From `s` to `t` the two sets and FAULT undergo changes of these kinds alone. -/
def State.alarmsTo (s t : State) : Prop := Alarms.Reaches s.alarms t.alarms

theorem State.alarmsTo.same {s t : State} (h : t.alarms = s.alarms) : s.alarmsTo t := by
  rw [State.alarmsTo, h]
  exact .refl

theorem State.alarmsTo.one {s t : State} (h : Alarms.Change s.alarms t.alarms) : s.alarmsTo t :=
  Alarms.Reaches.refl.step h

theorem State.alarmsTo.trans {s t u : State} (h : s.alarmsTo t) (g : t.alarmsTo u) : s.alarmsTo u :=
  Alarms.Reaches.trans h g

/-- The last operation first: its argument is read off the state it leads to. -/
theorem State.alarmsTo.after {s t u : State} (g : t.alarmsTo u) (h : s.alarmsTo t) : s.alarmsTo u := h.trans g

theorem State.alarmsTo.ite {s t u : State} {c : Prop} [Decidable c] (h : s.alarmsTo t) (g : s.alarmsTo u) :
    s.alarmsTo (if c then t else u) := by
  split
  · exact h
  · exact g

/-! ## The shared operations -/

theorem State.recordFault_alarmsTo (s : State) (f : FaultKind) : s.alarmsTo (s.recordFault f) := .one (.record f _)

theorem State.removeFaults_alarmsTo (s : State) (p : FaultKind → Bool) : s.alarmsTo (s.removeFaults p) := .one (.remove _ _)

theorem State.raise_alarmsTo (s : State) (w : Warning) : s.alarmsTo (s.raise w) := .one (.raise w _)

theorem State.raiseAll_alarmsTo (s : State) (ws : List Warning) : s.alarmsTo (s.raiseAll ws) := by
  induction ws generalizing s with
  | nil => exact .same rfl
  | cons w ws ih => exact (s.raise_alarmsTo w).trans (ih (s.raise w))

theorem State.departOldest_alarms (s : State) : s.departOldest.alarms = s.alarms := by
  obtain ⟨-, h⟩ | ⟨c, rest, -, h⟩ := s.departOldest_cases
  · rw [h]
  · rw [h]; rfl

theorem State.freeOldestBuffer_alarms (s : State) : s.freeOldestBuffer.alarms = s.alarms := by
  obtain ⟨-, h⟩ | ⟨c, rest, -, h⟩ := s.freeOldestBuffer_cases
  · rw [h]
  · rw [h]; rfl

theorem State.withdraw_alarms (s : State) : s.withdraw.alarms = s.alarms := by
  unfold State.withdraw
  split <;> rfl

theorem State.applyPlan_alarms (s : State) : s.applyPlan.alarms = s.alarms := by
  unfold State.applyPlan
  split <;> rfl

theorem State.abandonMotion_alarms (s : State) : s.abandonMotion.alarms = s.alarms := by
  unfold State.abandonMotion
  split
  · split
    · rfl
    · exact s.departOldest_alarms
  · rfl

theorem State.removeComposites_alarms (s : State) (fires : Bool) : (s.removeComposites fires).alarms = s.alarms := by
  obtain ⟨-, h⟩ | ⟨m, -, -, h⟩ | ⟨m, -, -, -, h⟩ | ⟨m, c, rest, -, -, -, -, h⟩ := s.removeComposites_cases fires <;> rw [h]
  · rfl
  · rfl
  · rfl
  · cases fires <;> rfl

/-- Of the pending stops PAPER alone records a fault (R58). -/
theorem State.applyStops_alarmsTo (s : State) : s.alarmsTo s.applyStops := by
  rw [State.applyStops_eq]
  exact .ite (.after (State.recordFault_alarmsTo _ _) (.same rfl)) (.same rfl)

theorem State.addStop_alarmsTo (s : State) (t : Stop) : s.alarmsTo (s.addStop t) := by
  obtain ⟨-, h⟩ | ⟨m, -, -, h⟩ | ⟨m, -, -, h⟩ := s.addStop_cases t <;> rw [h]
  · exact .after (State.applyStops_alarmsTo _) (.same rfl)
  · exact .after (State.applyStops_alarmsTo _) (.same (State.withdraw_alarms _))
  · exact .same rfl

/-- A motion may raise CHANNEL ABSENT at its start (R34). -/
theorem State.beginMotion_alarmsTo (s : State) (feed firing : Bool) (a : Action) :
    s.alarmsTo (s.beginMotion feed firing a) := by
  have h : (s.beginMotion feed firing a).alarms =
      (if s.form.channelAbsent s.line a then s.raise .channelAbsent else s).alarms := by
    unfold State.beginMotion
    split <;> rfl
  exact .after (.same h) (.ite (s.raise_alarmsTo _) (.same rfl))

/-- A conclusion changes the sets through the pending stops alone (R56). -/
theorem State.conclude_alarmsTo (s : State) : s.alarmsTo s.conclude := by
  unfold State.conclude
  split
  next m _ =>
    have left : (if m.feed then s.applyPlan else s.applyPlan.departOldest).alarms = s.alarms := by
      split
      · exact s.applyPlan_alarms
      · exact (State.departOldest_alarms _).trans s.applyPlan_alarms
    exact .after (State.applyStops_alarmsTo _) (.same left)
  next => exact .same rfl

theorem State.breakBar_alarmsTo (s : State) : s.alarmsTo s.breakBar := by
  rw [State.breakBar_eq]
  exact .after (State.recordFault_alarmsTo _ _)
    (.ite (.after (State.recordFault_alarmsTo _ _) (.same rfl)) (.same rfl))

/-! ## The parser -/

theorem State.offerLayer_alarmsTo (s : State) (l : Layer) (m : Mark) (b : Bool) : s.alarmsTo (s.offerLayer l m b) := by
  unfold State.offerLayer
  split
  · exact .after (State.raiseAll_alarmsTo _ _) (.same rfl)
  · exact .same rfl

theorem State.finishPrint_alarmsTo (s : State) (o : RecordOrder) (b : Bool) : s.alarmsTo (s.finishPrint o b) := by
  unfold State.finishPrint
  refine (s.offerLayer_alarmsTo (s.parser.layer.getD (.fresh s.straps.effective)).complete
    (s.parser.layer.getD (.fresh s.straps.effective)).mark b).trans ?_
  cases lineAction o <;> exact .same rfl

/-- A load that is rejected raises LOAD REJECTED (R29, R93, R96). -/
theorem State.rejected_alarmsTo (s : State) : s.alarmsTo (s.raise .loadRejected).clearParser := .one (.raise _ _)

theorem State.finishRecord_alarmsTo (s : State) (o : RecordOrder) : s.alarmsTo (s.finishRecord o) := by
  cases o with
  | printSpace k => exact s.finishPrint_alarmsTo (.printSpace k) false
  | printSkip c => exact s.finishPrint_alarmsTo (.printSkip c) false
  | loadForm =>
    show s.alarmsTo s.finishForm
    unfold State.finishForm
    split
    · exact .same rfl
    · exact s.rejected_alarmsTo
  | loadCodes =>
    show s.alarmsTo s.finishCodes
    unfold State.finishCodes
    split
    · exact .ite (.same rfl) s.rejected_alarmsTo
    · exact s.rejected_alarmsTo
  | loadGlyph =>
    show s.alarmsTo s.finishGlyph
    unfold State.finishGlyph
    split
    · exact .ite (.same rfl) s.rejected_alarmsTo
    · exact s.rejected_alarmsTo
  | moveSpace | moveSkip | checkBlank | checkBlock => exact .same rfl

theorem State.withRemaining_alarmsTo (s : State) (o : RecordOrder) (n : Nat) : s.alarmsTo (s.withRemaining o n) :=
  .ite (.after (State.finishRecord_alarmsTo _ o) (.same rfl)) (.same rfl)

/-- A byte beyond column 192 raises LONG RECORD once (R105). -/
theorem State.printByte_alarmsTo (s : State) (v : Byte) : s.alarmsTo (s.printByte v) :=
  .ite (.same rfl) (.ite (.same rfl) (.ite (.same rfl) (.one (.raise _ _))))

/-- A body byte changes the parser's record, and its last one ends it. -/
theorem State.bodyByte_alarmsTo (s : State) (o : RecordOrder) (v : Byte) : s.alarmsTo (s.bodyByte o v) := by
  have counted (p : Parser) (n : Nat) : s.alarmsTo (({ s with parser := p } : State).withRemaining o n) :=
    .after (State.withRemaining_alarmsTo _ o n) (.same rfl)
  unfold State.bodyByte
  cases o <;> simp only
  case printSpace | printSkip =>
    split
    · exact counted _ _
    · exact (s.printByte_alarmsTo v).trans (State.withRemaining_alarmsTo _ _ _)
  case loadForm | loadCodes =>
    split
    · exact .same rfl
    · exact counted _ _
    · exact counted _ _
  case loadGlyph => exact counted _ _
  case moveSpace | moveSkip | checkBlank | checkBlock => exact .same rfl

/-- A line order raises no warning (R7). -/
theorem State.lineOrder_alarmsTo (s : State) (o : RecordOrder) : s.alarmsTo (s.lineOrder o) := by
  have taken (u : State) (hu : u.alarms = s.alarms) : s.alarmsTo (u.takeLine o) := by
    refine .ite (.same hu) ?_
    split <;> exact .same hu
  exact .ite (taken s rfl) (.ite (taken _ rfl) (.same rfl))

theorem State.startRecord_alarmsTo (s : State) (o : RecordOrder) : s.alarmsTo (s.startRecord o) := by
  cases o with
  | printSpace | printSkip | moveSpace | moveSkip => exact s.lineOrder_alarmsTo _
  | loadForm | loadGlyph => exact .ite (.same rfl) (.same rfl)
  | loadCodes | checkBlank | checkBlock => exact .same rfl

/-- A load ended short raises SHORT RECORD and then LOAD REJECTED (R116). -/
theorem State.endShort_alarmsTo (s : State) : s.alarmsTo s.endShort := by
  unfold State.endShort
  split
  · exact .ite (s.finishPrint_alarmsTo _ _) ((s.raise_alarmsTo .shortRecord).trans (State.rejected_alarmsTo _))
  · exact .same rfl

theorem State.takeOrder_alarmsTo (s : State) (v : Byte) : s.alarmsTo (s.takeOrder v) := by
  have ended : s.alarmsTo (match s.parser.state with | .body | .awaitDrain => s.endShort | _ => s) := by
    split
    · exact s.endShort_alarmsTo
    · exact s.endShort_alarmsTo
    · exact .same rfl
  unfold State.takeOrder
  cases decodeRecordOrder v with
  | some o => exact ended.trans (State.startRecord_alarmsTo _ o)
  | none => exact ended.trans (State.raise_alarmsTo _ _)

theorem State.takeData_alarmsTo (s : State) (v : Byte) : s.alarmsTo (s.takeData v) := by
  unfold State.takeData
  split
  · exact s.bodyByte_alarmsTo _ v
  · exact s.raise_alarmsTo _

theorem State.runParser_alarmsTo (n : Nat) (s : State) : s.alarmsTo (s.runParser n) := by
  induction n generalizing s with
  | zero => exact .same rfl
  | succ n ih =>
    unfold State.runParser
    cases s.inputBuffer with
    | nil => exact .same rfl
    | cons b rest =>
      have taken : s.alarmsTo { s with inputBuffer := rest } := .same rfl
      exact .ite (taken.trans
        (.after (ih _) (.ite (State.takeOrder_alarmsTo _ _) (State.takeData_alarmsTo _ _)))) (.same rfl)

theorem State.parse_alarmsTo (s : State) : s.alarmsTo s.parse := s.runParser_alarmsTo _

/-- A byte lost to overrun records its fault (R156). -/
theorem State.receive_alarmsTo (s : State) (b : PortByte) : s.alarmsTo (s.receive b) :=
  .ite (.after (State.parse_alarmsTo _) (.same rfl)) (s.recordFault_alarmsTo _)

theorem State.strobeRecord_alarmsTo (s : State) (b : PortByte) : s.alarmsTo (s.strobeRecord b) :=
  .ite (.after (State.receive_alarmsTo _ b) (.same rfl)) (.same rfl)

/-! ## The steps due -/

theorem State.grantPlace_alarmsTo (s : State) : s.alarmsTo s.grantPlace := by
  obtain h | ⟨o, -, -, -, -, h⟩ := s.grantPlace_cases <;> rw [h]
  · exact .same rfl
  · exact (s.lineOrder_alarmsTo o).trans (State.parse_alarmsTo _)

theorem State.endDrain_alarmsTo (s : State) : s.alarmsTo s.endDrain := by
  obtain h | ⟨o, -, -, -, h⟩ := s.endDrain_cases <;> rw [h]
  · exact .same rfl
  · exact .after (State.parse_alarmsTo _) (.same rfl)

theorem State.startRender_alarmsTo (s : State) : s.alarmsTo s.startRender := by
  obtain h | ⟨buf, c, -, -, -, h⟩ := s.startRender_cases <;> rw [h] <;> exact .same rfl

/-- A motion start may record DATA CHECK in its place (R149). -/
theorem State.startMotion_alarmsTo (s : State) : s.alarmsTo s.startMotion := by
  obtain h | ⟨c, rest, a, -, -, -, -, -, -, -, ⟨-, h⟩ | ⟨-, h⟩⟩ := s.startMotion_cases <;> rw [h]
  · exact .same rfl
  · exact s.recordFault_alarmsTo _
  · exact .after (State.beginMotion_alarmsTo _ _ _ _) (.same rfl)

theorem State.catchUp_alarmsTo (s : State) : s.alarmsTo s.catchUp :=
  State.alarmsTo.trans (t := s.releaseKeys.settle)
    (s.releaseKeys.grantPlace_alarmsTo.trans <| (State.endDrain_alarmsTo _).trans <|
      (State.startRender_alarmsTo _).trans (State.startMotion_alarmsTo _))
    (.same rfl)

theorem State.tick_alarmsTo (s : State) : s.alarmsTo s.tick :=
  s.catchUp_alarmsTo.trans (.ite (.same rfl) (.same rfl))

/-! ## The control orders, the port reset and the keys -/

theorem State.discardOrder_alarmsTo (s : State) : s.alarmsTo s.discardOrder := by
  have h : s.alarmsTo ((s.removeComposites false).abandonInput.removeFaults discardClears) :=
    .after (State.removeFaults_alarmsTo _ _) (.same (s.removeComposites_alarms false))
  exact .ite (h.trans (State.addStop_alarmsTo _ _)) h

theorem State.resumeOrder_alarmsTo (s : State) : s.alarmsTo s.resumeOrder := .one (.remove _ _)

theorem State.portReset_alarmsTo (s : State) : s.alarmsTo s.portReset :=
  .after (t := (s.removeComposites true).abandonInput) (.one (.remove _ _)) (.same (s.removeComposites_alarms true))

/-- A control order changes the alarms as its two effects do. -/
theorem strobeControl_alarmsTo {forming acts : State → State} (hf : ∀ s : State, s.alarmsTo (forming s))
    (ha : ∀ s : State, s.alarmsTo (acts s)) (s : State) : s.alarmsTo (strobeControl forming acts s) := by
  have h : s.alarmsTo s.catchUp.writeRise := s.catchUp_alarmsTo
  exact .ite (.ite (h.trans (ha _)) (h.trans (hf _))) h

theorem controlStrobe_alarmsTo (c : ControlOrder) (s : State) : s.alarmsTo (controlStrobe c s) := by
  cases c with
  | hold => exact strobeControl_alarmsTo (fun _ => .same rfl) (fun u => .ite (u.addStop_alarmsTo _) (.same rfl)) s
  | discard => exact strobeControl_alarmsTo (fun u => u.removeFaults_alarmsTo _) State.discardOrder_alarmsTo s
  | resume => exact strobeControl_alarmsTo (fun _ => .same rfl) State.resumeOrder_alarmsTo s
  | sense =>
    exact strobeControl_alarmsTo (forming := State.senseOrder) (acts := State.senseOrder) (fun _ => .same rfl)
      (fun _ => .same rfl) s

theorem strobeOrder_alarmsTo (v : Byte) (s : State) : s.alarmsTo (strobeOrder v s) := by
  unfold strobeOrder
  split
  · exact controlStrobe_alarmsTo _ s
  · exact s.catchUp_alarmsTo.trans (State.strobeRecord_alarmsTo _ _)

theorem State.readSensors_alarmsTo (s : State) : s.alarmsTo s.readSensors := by
  have h : s.alarmsTo (if s.inputs.coverClosed then s else s.recordFault .coverOpen) :=
    .ite (.same rfl) (s.recordFault_alarmsTo _)
  exact .ite h (h.trans (State.addStop_alarmsTo _ _))

theorem State.stopKey_alarmsTo (s : State) : s.alarmsTo s.stopKey := by
  unfold State.stopKey State.stopFeed
  split
  · exact s.addStop_alarmsTo _
  · exact .same rfl
  · split
    · exact .ite (.same s.withdraw_alarms) (.same rfl)
    · exact .same rfl
  · exact .same rfl
  · exact .same rfl

/-! ## The commands -/

/-- Wherever an outcome is a next state, it is reached from `s` by such changes. -/
def State.answersAlarms (s : State) (o : Host.Outcome State Fault Refusal) : Prop := ∀ t, o = .next t → s.alarmsTo t

theorem State.answersAlarms.next {s t : State} (h : s.alarmsTo t) : s.answersAlarms (.next t) := by
  rintro _ ⟨⟩
  exact h

theorem State.answersAlarms.ite {s : State} {c : Prop} [Decidable c] {o o' : Host.Outcome State Fault Refusal}
    (h : s.answersAlarms o) (g : s.answersAlarms o') : s.answersAlarms (if c then o else o') := by
  split
  · exact h
  · exact g

/-- What an event does, it does after the steps due (log 5). -/
theorem State.answersAlarms.ofCatchUp {s : State} {o : Host.Outcome State Fault Refusal} (h : s.catchUp.answersAlarms o) :
    s.answersAlarms o := fun t ht => s.catchUp_alarmsTo.trans (h t ht)

/-- An event that goes on in a state with the alarms of the one it came in. -/
theorem State.answersAlarms.still {s t : State} (h : t.alarms = s.alarms) : s.answersAlarms (.next t) := .next (.same h)

section Commands
variable (s : State)

theorem execArbitrationRead_alarms (p : Peers) : s.answersAlarms (execArbitrationRead p s) := by
  refine .ofCatchUp ?_
  unfold execArbitrationRead
  dsimp only
  split
  · exact .ite (.still rfl) (.still rfl)
  · exact .still rfl

/-- The winner's read of byte 7 consumes the warnings of its snapshot (R167). -/
theorem execSenseRecordRead_alarms : s.answersAlarms (execSenseRecordRead s) := by
  refine .ofCatchUp ?_
  unfold execSenseRecordRead
  dsimp only
  split
  · exact .ite (.next (.ite (.one (.consume _ _)) (.same rfl))) (.still rfl)
  · exact .still rfl

theorem execStartIntervalExpiry_alarms : s.answersAlarms (execStartIntervalExpiry s) := by
  refine .ofCatchUp ?_
  unfold execStartIntervalExpiry
  dsimp only
  split <;> exact .still rfl

theorem execFormingIntervalExpiry_alarms : s.answersAlarms (execFormingIntervalExpiry s) := by
  refine .ofCatchUp ?_
  unfold execFormingIntervalExpiry
  dsimp only
  split
  · exact .next (.after (State.readSensors_alarmsTo _) (.same rfl))
  · exact .still rfl

/-- KTOF removes FRAME SKEW, and applies the stops that pend for the motion it abandons (R152). -/
theorem execKtof_alarms : s.answersAlarms (execKtof s) := by
  have restarted (u : State) : u.alarmsTo (u.abandonMotion.topOfForm.removeFaults tofClears) :=
    .after (State.removeFaults_alarmsTo _ _) (.same u.abandonMotion_alarms)
  have accepted (u : State) (hu : u.alarms = s.catchUp.alarms) : s.catchUp.answersAlarms (.next
      (if u.motion.isSome then (u.abandonMotion.topOfForm.removeFaults tofClears).applyStops
        else u.abandonMotion.topOfForm.removeFaults tofClears)) :=
    .next (.after (.ite ((restarted u).trans (State.applyStops_alarmsTo _)) (restarted u)) (.same hu))
  exact .ofCatchUp (.ite (.still rfl) (.ite (accepted _ rfl) (.still rfl)))

/-- FAULT rises at a station whose fault set is empty, before a conclusion can record PAPER OUT (R58, R143). -/
theorem execFaultRise_alarms (high : Bool) : s.answersAlarms (execFaultRise high s) := by
  refine .ofCatchUp ?_
  unfold execFaultRise
  dsimp only
  split
  next h =>
    have risen (m : Option Motion) : s.catchUp.alarmsTo { s.catchUp with faultLow := false, motion := m } :=
      .one (.rise _ (List.isEmpty_iff.1 h.1))
    exact .next (.ite ((risen _).trans (State.conclude_alarmsTo _)) (risen _))
  next => exact .still rfl

/-- A step with no row to bring records FRAME SKEW (R50). -/
theorem execStep_alarms : s.answersAlarms (execStep s) := by
  refine .ofCatchUp ?_
  unfold execStep
  refine .ite (.still rfl) ?_
  split
  · exact .ite (.next (State.recordFault_alarmsTo _ _)) (.still rfl)
  · exact .next (State.recordFault_alarmsTo _ _)

theorem execStepPulseEnd_alarms : s.answersAlarms (execStepPulseEnd s) := by
  refine .ofCatchUp ?_
  unfold execStepPulseEnd
  dsimp only
  split <;> exact .still rfl

theorem execFirePulseStart_alarms : s.answersAlarms (execFirePulseStart s) := by
  refine .ofCatchUp ?_
  unfold execFirePulseStart
  dsimp only
  split
  · split
    · exact .ite (.still rfl) (.still rfl)
    · exact .still rfl
  · exact .still rfl

theorem execFirePulseEnd_alarms : s.answersAlarms (execFirePulseEnd s) := by
  refine .ofCatchUp ?_
  unfold execFirePulseEnd
  dsimp only
  split
  · split
    · exact .next (.ite (.same (State.freeOldestBuffer_alarms _)) (.same rfl))
    · exact .still rfl
  · exact .still rfl

theorem execFrameHoldDelay_alarms : s.answersAlarms (execFrameHoldDelay s) := by
  refine .ofCatchUp ?_
  unfold execFrameHoldDelay
  dsimp only
  split <;> exact .still rfl

/-- A frame timer that has run out records FRAME SKEW (R57). -/
theorem execFrameTimerExpiry_alarms : s.answersAlarms (execFrameTimerExpiry s) := by
  refine .ofCatchUp ?_
  unfold execFrameTimerExpiry
  dsimp only
  split
  · split
    · exact .next (.after (State.recordFault_alarmsTo _ _) (.same rfl))
    · exact .still rfl
  · exact .still rfl

theorem execRenderCompletion_alarms : s.answersAlarms (execRenderCompletion s) := by
  refine .ofCatchUp ?_
  unfold execRenderCompletion
  dsimp only
  split <;> exact .still rfl

/-- Every command makes these changes alone. -/
theorem exec_alarms (i : Instr) : s.answersAlarms (exec i s) := by
  cases i with
  | printSpace | printSkip | moveSpace | moveSkip | loadForm | loadCodes | loadGlyph | checkBlank | checkBlock
  | unknownOrder | hold | discard | resume | sense => exact .next (strobeOrder_alarmsTo _ s)
  | dataByte => exact .ofCatchUp (.next (State.strobeRecord_alarmsTo _ _))
  | arbitrationRead p => exact execArbitrationRead_alarms s p
  | senseRecordRead => exact execSenseRecordRead_alarms s
  | pstrFall dir => cases dir <;> exact .ofCatchUp (.still rfl)
  | pinitFall => exact .ofCatchUp (.still rfl)
  | pinit => exact .ofCatchUp (.next (.ite (.after (State.portReset_alarmsTo _) (.same rfl)) (.same rfl)))
  | fullReset => exact .ofCatchUp (.next (.one (.reset _)))
  | startIntervalExpiry => exact execStartIntervalExpiry_alarms s
  | formingIntervalExpiry => exact execFormingIntervalExpiry_alarms s
  | joinFall =>
    exact .ofCatchUp (.ite (.still rfl) (.ite (.next (.after (State.breakBar_alarmsTo _) (.same rfl)))
      (.ite (.still rfl) (.still rfl))))
  | resetRelease | joinRise | coverClosed | paperPresent => exact .ofCatchUp (.ite (.still rfl) (.still rfl))
  | coverOpen =>
    exact .ofCatchUp (.ite (.still rfl) (.next (.ite (.after (State.recordFault_alarmsTo _ _) (.same rfl)) (.same rfl))))
  | paperAbsent =>
    exact .ofCatchUp (.ite (.still rfl) (.next (.ite (.after (State.addStop_alarmsTo _ _) (.same rfl)) (.same rfl))))
  | kstart => exact .ofCatchUp (.ite (.still rfl) (.next (.ite (.one (.remove _ _)) (.same rfl))))
  | kstop => exact .ofCatchUp (.ite (.still rfl) (.next (.after (State.stopKey_alarmsTo _) (.same rfl))))
  | kfeed =>
    exact .ofCatchUp (.ite (.still rfl)
      (.next (.ite (.after (State.beginMotion_alarmsTo _ _ _ _) (.same rfl)) (.same rfl))))
  | ktof => exact execKtof_alarms s
  | faultFall => exact .ofCatchUp (.next (.ite (.one (.fall _)) (.same rfl)))
  | faultRise high => exact execFaultRise_alarms s high
  | step => exact execStep_alarms s
  | frameEvent => exact .ofCatchUp (.ite (.next s.catchUp.conclude_alarmsTo) (.still rfl))
  | stepPulseEnd => exact execStepPulseEnd_alarms s
  | stepRelease => exact .ofCatchUp (.next (.ite (.same rfl) (.same rfl)))
  | firePulseStart => exact execFirePulseStart_alarms s
  | firePulseEnd => exact execFirePulseEnd_alarms s
  | frameHoldDelay => exact execFrameHoldDelay_alarms s
  | frameTimerExpiry => exact execFrameTimerExpiry_alarms s
  | motionStart => exact .next s.startMotion_alarmsTo
  | renderStart => exact .next s.startRender_alarmsTo
  | renderCompletion => exact execRenderCompletion_alarms s
  | placeGrant => exact .next s.grantPlace_alarmsTo
  | drainEnd => exact .next s.endDrain_alarmsTo

end Commands

/-- A step takes the front command, or the steps due. -/
theorem step_alarmsTo {s t : State} (h : step s = .next t) : s.alarmsTo t := by
  unfold step at h
  split at h
  next c rest _ => exact exec_alarms { s with pending := rest } c t h
  next => cases h; exact s.tick_alarmsTo

/-! ## What the changes keep -/

/-- The two sets hold no kind twice (R141, R161). -/
def Alarms.nodup (x : Alarms) : Prop := x.faults.Nodup ∧ x.warnings.Nodup

theorem Alarms.Change.nodup {x y : Alarms} (h : Alarms.Change x y) : x.nodup → y.nodup := by
  rintro ⟨hf, hw⟩
  cases h with
  | record f => exact ⟨addOnce_nodup hf, hw⟩
  | remove keep => exact ⟨hf.filter keep, hw⟩
  | raise w => exact ⟨hf, addOnce_nodup hw⟩
  | consume keep => exact ⟨hf, hw.filter keep⟩
  | fall => exact ⟨hf, hw⟩
  | rise => exact ⟨hf, hw⟩
  | reset => exact ⟨List.nodup_nil, List.pairwise_singleton _ _⟩

/-- FAULT is low while the fault set is not empty (R142, R143). -/
def Alarms.heldLow (x : Alarms) : Prop := x.faults = [] ∨ x.low = true

theorem Alarms.Change.heldLow {x y : Alarms} (h : Alarms.Change x y) : x.heldLow → y.heldLow := by
  intro hx
  cases h with
  | record f => exact .inr rfl
  | remove keep => exact hx.imp_left fun hnone => by rw [hnone, List.filter_nil]
  | raise w => exact hx
  | consume keep => exact hx
  | fall => exact .inr rfl
  | rise _ hnone => exact .inl hnone
  | reset => exact .inl rfl

/-! ## The statements -/

/-- Settles O8: each change keeps the two sets free of repetition. -/
theorem noKindIsHeldTwice : Obligations.NoKindIsHeldTwice :=
  fun _ _ hf hw h => Alarms.Reaches.keeps (fun _ _ => Alarms.Change.nodup) (step_alarmsTo h) ⟨hf, hw⟩

/-- Settles O9: a fault is recorded with FAULT low, and FAULT rises only with the fault set empty. -/
theorem ownFaultHoldsFaultLow : Obligations.OwnFaultHoldsFaultLow :=
  fun _ _ hs h => Alarms.Reaches.keeps (fun _ _ => Alarms.Change.heldLow) (step_alarmsTo h) hs

end Sys2Proof.Machine
end

section
/-! The interlocks, KFEED and KTOF, and the two edges of FAULT at a station with nothing due (R22, R41, R53, R56 to R61, R65, R143 to
R148, R151, R152). Settles O41, O42, O44, O45, O46 and O47. -/

namespace Sys2Proof.Machine

/-! ## The cover -/

section Cover
variable {s : State}

/-- The accepted opening of the cover (R140, R145). -/
def State.coverOpened (s : State) : State := { s with inputs := { s.inputs with coverClosed := false } }

/-- A cover that is accepted open already (log 18). -/
theorem exec_coverOpen_of_open (hq : s.quiet = true) (hc : s.inputs.coverClosed = false) :
    exec .coverOpen s = .next s := by
  show execCoverOpen s = _
  unfold execCoverOpen
  rw [State.catchUp_of_quiet hq]
  exact if_pos (.inr hc)

/-- A cover that is accepted closed opens (R145). -/
theorem exec_coverOpen_of_closed (hq : s.quiet = true) (hr : s.rstLow = false) (hc : s.inputs.coverClosed = true) :
    exec .coverOpen s = .next (if s.mode.working then s.coverOpened.recordFault .coverOpen else s.coverOpened) := by
  show execCoverOpen s = _
  unfold execCoverOpen
  rw [State.catchUp_of_quiet hq]
  exact if_neg (by simp [hr, hc])

theorem exec_coverClosed_of_released (hq : s.quiet = true) (hr : s.rstLow = false) :
    exec .coverClosed s = .next { s with inputs := { s.inputs with coverClosed := true } } := by
  show execCoverClosed s = _
  unfold execCoverClosed
  rw [State.catchUp_of_quiet hq]
  exact if_neg (by simp [hr])

end Cover

/-- Settles O41: the opening of the cover by the level accepted before and by the mode, and its closing. -/
theorem coverCutsTheHeadOff : Obligations.CoverCutsTheHeadOff := by
  intro s hq hr
  refine ⟨exec_coverOpen_of_open hq, fun hc hw => ?_, fun hc hw => ?_, exec_coverClosed_of_released hq hr⟩
  · refine ⟨s.coverOpened.recordFault .coverOpen, ?_, State.recordFault_eq_stoppedBy _ _, State.recordFault_faulted _ _, ?_,
      rfl, State.recordFault_fireOn _ _⟩
    · rw [exec_coverOpen_of_closed hq hr hc, if_pos hw]
    · simp [State.holdsFault]
  · rw [exec_coverOpen_of_closed hq hr hc, hw]
    rfl

/-! ## The paper -/

section Paper
variable {s : State}

/-- The accepted absence of paper (R140, R147). -/
def State.paperGone (s : State) : State := { s with inputs := { s.inputs with paperPresent := false } }

/-- Paper that is accepted absent already (log 18). -/
theorem exec_paperAbsent_of_absent (hq : s.quiet = true) (hp : s.inputs.paperPresent = false) :
    exec .paperAbsent s = .next s := by
  show execPaperAbsent s = _
  unfold execPaperAbsent
  rw [State.catchUp_of_quiet hq]
  exact if_pos (.inr hp)

/-- Paper that is accepted present goes (R147). -/
theorem exec_paperAbsent_of_present (hq : s.quiet = true) (hr : s.rstLow = false) (hp : s.inputs.paperPresent = true) :
    exec .paperAbsent s = .next (if s.mode.working then s.paperGone.addStop .paper else s.paperGone) := by
  show execPaperAbsent s = _
  unfold execPaperAbsent
  rw [State.catchUp_of_quiet hq]
  exact if_neg (by simp [hr, hp])

theorem exec_paperPresent_of_released (hq : s.quiet = true) (hr : s.rstLow = false) :
    exec .paperPresent s = .next { s with inputs := { s.inputs with paperPresent := true } } := by
  show execPaperPresent s = _
  unfold execPaperPresent
  rw [State.catchUp_of_quiet hq]
  exact if_neg (by simp [hr])

/-- A PAPER stop alone at s = 0 records PAPER OUT through withdrawal (R59, R147). -/
theorem State.addStop_paper_of_unstepped {m : Motion} (hm : s.motion = some m) (h : m.steps = 0) (hs : s.stops = {}) :
    s.addStop .paper = s.withdraw.recordFault .paperOut := by
  have hset : ({ s.withdraw with stops := {} } : State) = s.withdraw := by rw [← hs, ← s.withdraw_stops]
  rw [State.addStop_of_unstepped _ hm h, hs]
  exact congrArg (State.recordFault .paperOut) hset

end Paper

/-- Settles O42: the PAPER stop by the moment at which it comes, and the return of paper. -/
theorem paperStopsAtTheBoundary : Obligations.PaperStopsAtTheBoundary := by
  intro s hq hr out
  refine ⟨exec_paperAbsent_of_absent hq, exec_paperPresent_of_released hq hr, fun hp => ?_⟩
  have hgone := exec_paperAbsent_of_present hq hr hp
  have hstop (hw : s.mode.working = true) : exec .paperAbsent s = .next (s.paperGone.addStop .paper) := by
    rw [hgone, if_pos hw]
  refine ⟨fun hw hm hs => ?_, fun m c rest hw hm h0 hs hf hc => ?_, fun m hw hm h0 hs hf => ?_, fun m hw hm h1 => ?_,
    fun hw => ?_⟩
  · rw [hstop hw, State.addStop_paper_of_boundary (s := s.paperGone) hm hs, State.recordFault,
      State.cutoff_of_boundary (s := s.paperGone) hm]
    rfl
  · rw [hstop hw, State.addStop_paper_of_unstepped (s := s.paperGone) hm h0 hs,
      State.withdraw_line (s := s.paperGone) hm hf hc]
    rfl
  · rw [hstop hw, State.addStop_paper_of_unstepped (s := s.paperGone) hm h0 hs, State.withdraw_feed (s := s.paperGone) hm hf]
    rfl
  · rw [hstop hw, State.addStop_of_stepped (s := s.paperGone) _ hm h1]
    rfl
  · rw [hgone, hw]
    rfl

/-! ## KFEED -/

section Feed
variable {s : State}

/-- The accepted press of KFEED (R140, R151). -/
def State.kfeedPressed (s : State) : State := { s with inputs := { s.inputs with kfeed := true } }

theorem exec_kfeed_of_released (hq : s.quiet = true) (hr : s.rstLow = false) :
    exec .kfeed s = .next
      (if s.kfeedPressed.feedAccepted then s.kfeedPressed.beginMotion true false (.skip 1) else s.kfeedPressed) := by
  show execKfeed s = _
  unfold execKfeed
  rw [State.catchUp_of_quiet hq]
  exact if_neg (by simp [hr])

theorem State.takingForm_iff (s : State) :
    s.takingForm = true ↔ s.parser.state = .body ∧ s.parser.order = some .loadForm := by
  simp [State.takingForm]

theorem State.feedAccepted_iff (s : State) :
    s.feedAccepted = true ↔ s.mode = .stopped ∧ s.faults = [] ∧ s.faultLow = false ∧ s.motion = none ∧
      ¬(s.parser.state = .body ∧ s.parser.order = some .loadForm) := by
  rw [← State.takingForm_iff]
  simp [State.feedAccepted, State.faulted_eq_false_iff, and_assoc]

/-- A motion that starts outside the moment of a frame event holds FRAME low at once (R46, R54). -/
theorem State.beginMotion_without_frameEvent (feed firing : Bool) (a : Action) (h : s.frameMoment = false) :
    s.beginMotion feed firing a =
      { s with
        plan := some (s.form.planFor s.line s.overflow a)
        motion := some { feed := feed, distance := (s.form.planFor s.line s.overflow a).distance, firing := firing }
        stepDrive := .held
        frameDelay := none
        warnings := if s.form.channelAbsent s.line a then addOnce .channelAbsent s.warnings else s.warnings } := by
  simp [State.beginMotion, h]

end Feed

/-- Settles O44: the press is accepted under the conditions of R151, and the moment of a quiet station is no frame event. -/
theorem feedSkipsToChannelOne : Obligations.FeedSkipsToChannelOne := by
  intro s hq hr accepted p
  obtain ⟨-, -, -, -, hmoment, -⟩ := s.quiet_iff.1 hq
  have haccepted : s.kfeedPressed.feedAccepted = true ↔ accepted := s.kfeedPressed.feedAccepted_iff
  refine ⟨fun h => ?_, fun h => ?_⟩
  · rw [exec_kfeed_of_released hq hr, if_pos (haccepted.2 h),
      State.beginMotion_without_frameEvent (s := s.kfeedPressed) _ _ _ hmoment]
    rfl
  · rw [exec_kfeed_of_released hq hr, if_neg (mt haccepted.1 h)]
    rfl

/-! ## KTOF -/

section Tof
variable {s : State}

/-- The accepted press of KTOF (R140, R152). -/
def State.ktofPressed (s : State) : State := { s with inputs := { s.inputs with ktof := true } }

theorem State.tofAccepted_iff (s : State) :
    s.tofAccepted = true ↔
      s.mode = .starting ∨ s.mode = .forming ∨ (s.mode = .stopped ∧ s.motion = none) ∨ s.faulted = true := by
  simp [State.tofAccepted, or_assoc]

/-- A press that is not accepted changes the accepted level alone (R140, R152). -/
theorem exec_ktof_of_disregarded (hq : s.quiet = true) (hr : s.rstLow = false) (h : s.tofAccepted = false) :
    exec .ktof s = .next s.ktofPressed := by
  have hnot : ¬s.ktofPressed.tofAccepted = true := Bool.eq_false_iff.1 h
  show execKtof s = _
  unfold execKtof
  rw [State.catchUp_of_quiet hq]
  exact (if_neg (by simp [hr])).trans (if_neg hnot)

/-- An accepted press (R152). -/
theorem exec_ktof_of_accepted (hq : s.quiet = true) (hr : s.rstLow = false) (h : s.tofAccepted = true) :
    exec .ktof s = .next
      (if s.motion.isSome then (s.ktofPressed.abandonMotion.topOfForm.removeFaults tofClears).applyStops
        else s.ktofPressed.abandonMotion.topOfForm.removeFaults tofClears) := by
  show execKtof s = _
  unfold execKtof
  rw [State.catchUp_of_quiet hq]
  exact (if_neg (by simp [hr])).trans (if_pos h)

/-- KTOF removes FRAME SKEW alone, and leaves BLOCKED as it is (R3, R152). -/
theorem State.removeFaults_tofClears (s : State) :
    s.removeFaults tofClears = { s with faults := s.faults.filter fun f => f != .frameSkew } := by
  have hkept : (fun f => !tofClears f) = fun f : FaultKind => f != .frameSkew := by
    funext f
    cases f <;> rfl
  have hdata : tofClears .dataCheck = false := rfl
  rw [State.removeFaults, hkept, hdata, Bool.and_false]
  rfl

/-- The pending stops of a station at a boundary: PAPER alone moves FAULT (R58, R142). -/
theorem State.applyStops_at_boundary (hm : s.motion = none) (hd : s.stepDrive = .held) :
    s.applyStops =
      { s with
        stops := {}
        mode := if s.stops.kstop then .stopped else if s.stops.hold || s.stops.discard then .held else s.mode
        faults := if s.stops.paper then addOnce .paperOut s.faults else s.faults
        faultLow := s.faultLow || s.stops.paper } := by
  rw [State.applyStops_eq]
  cases s.stops.paper with
  | true =>
    rw [Bool.or_true]
    exact State.recordFault_at_boundary _ hm hd
  | false =>
    rw [Bool.or_false]
    rfl

/-- A line's motion that is abandoned takes its composite and its buffer with it (R22, R65, R76). -/
theorem State.abandonMotion_line {m : Motion} {c : Composite} {rest : List Composite} (hm : s.motion = some m)
    (hf : m.feed = false) (hc : s.queue = c :: rest) :
    s.abandonMotion =
      { s.dropMotion with
        queue := rest
        bufA := if s.bufA.holder = some c.seq then { s.bufA with holder := none } else s.bufA
        bufB := if s.bufB.holder = some c.seq then { s.bufB with holder := none } else s.bufB } := by
  rw [State.abandonMotion_of_motion hm, hf, State.departOldest, hc]
  rfl

/-- A FEED that is abandoned takes no composite with it (R65). -/
theorem State.abandonMotion_feed {m : Motion} (hm : s.motion = some m) (hf : m.feed = true) :
    s.abandonMotion = s.dropMotion := by
  rw [State.abandonMotion_of_motion hm, hf]
  rfl

end Tof

/-- Settles O45: an accepted press at a boundary, with a line's motion and with a FEED; and a press that is disregarded. -/
theorem topOfFormKey : Obligations.TopOfFormKey := by
  intro s hq hr top abandoned
  have hfaulted (hf : s.faults ≠ [] ∨ s.faultLow = true) : s.tofAccepted = true :=
    s.tofAccepted_iff.2 (.inr (.inr (.inr (s.faulted_iff.2 hf))))
  refine ⟨fun hm h => ?_, fun m c rest hm hfeed hc hf => ?_, fun m hm hfeed hf => ?_, fun h hf hl => ?_⟩
  · have haccepted : s.tofAccepted = true := by
      obtain h | h | h | h := h
      · exact s.tofAccepted_iff.2 (.inl h)
      · exact s.tofAccepted_iff.2 (.inr (.inl h))
      · exact s.tofAccepted_iff.2 (.inr (.inr (.inl ⟨h, hm⟩)))
      · exact hfaulted h
    rw [exec_ktof_of_accepted hq hr haccepted, hm, State.abandonMotion_of_boundary (s := s.ktofPressed) hm,
      State.removeFaults_tofClears]
    rfl
  · rw [exec_ktof_of_accepted hq hr (hfaulted hf), hm, State.abandonMotion_line (s := s.ktofPressed) hm hfeed hc,
      State.removeFaults_tofClears]
    exact congrArg Host.Outcome.next (State.applyStops_at_boundary rfl rfl)
  · rw [exec_ktof_of_accepted hq hr (hfaulted hf), hm, State.abandonMotion_feed (s := s.ktofPressed) hm hfeed,
      State.removeFaults_tofClears]
    exact congrArg Host.Outcome.next (State.applyStops_at_boundary rfl rfl)
  · have hclear : s.faulted = false := s.faulted_eq_false_iff.2 ⟨hf, hl⟩
    have hnot : s.tofAccepted = false := by
      rw [Bool.eq_false_iff, ne_eq, State.tofAccepted_iff, hclear]
      obtain ho | hh | ⟨hs, hm⟩ := h
      · simp [ho]
      · simp [hh]
      · simp [hs, hm]
    exact exec_ktof_of_disregarded hq hr hnot

/-! ## The edges of FAULT -/

section FaultLine
variable {s : State}

theorem exec_faultFall_of_quiet (hq : s.quiet = true) :
    exec .faultFall s = .next (if s.faults.isEmpty then s.cutoff else s) := by
  show execFaultFall s = _
  rw [execFaultFall, State.catchUp_of_quiet hq]

/-- The cutoff of a station is the interruption that the statements write out (R53, R144). -/
theorem State.cutoff_eq_interrupted (s : State) :
    s.cutoff = { s with faultLow := true, stepDrive := .held, motion := s.motion.map (Motion.interrupted s.clock) } := by
  rw [State.cutoff, show (fun m : Motion => m.cut s.clock) = Motion.interrupted s.clock from
    funext (Motion.cut_eq_interrupted s.clock)]

/-- The state of a station that ceases to be faulted, before a motion that waits is concluded (R53, R57, R143). -/
def State.faultRisen (s : State) : State :=
  { s with faultLow := false, motion := s.motion.map fun m => m.resume s.clock }

theorem exec_faultRise_of_bystander (high : Bool) (hq : s.quiet = true) (hf : s.faults = []) (hl : s.faultLow = true) :
    exec (.faultRise high) s = .next (if high ∧ s.faultRisen.waiting then s.faultRisen.conclude else s.faultRisen) := by
  show execFaultRise high s = _
  unfold execFaultRise
  rw [State.catchUp_of_quiet hq]
  exact if_pos ⟨List.isEmpty_iff.2 hf, hl⟩

/-- The resumption of a motion is the one that the statements write out (R53, R57). -/
theorem Motion.resume_eq_resumed (now : Micros) (m : Motion) : m.resume now = m.resumed now := by
  obtain ⟨feed, distance, steps, firing, row, timer⟩ := m
  cases row <;> cases timer <;> rfl

/-- A motion waits at its end after a rise of FAULT exactly when it did before (R53). -/
theorem State.faultRisen_waiting (s : State) : s.faultRisen.waiting = s.waiting := by
  rw [Bool.eq_iff_iff, State.waiting_iff, State.waiting_iff]
  cases hm : s.motion <;> simp [State.faultRisen, hm, Row.resume_eq_none]

theorem State.faultRisen_of_boundary (hm : s.motion = none) : s.faultRisen = { s with faultLow := false } := by
  rw [State.faultRisen, hm, Option.map_none, ← hm]

theorem State.faultRisen_of_motion {m : Motion} (hm : s.motion = some m) :
    s.faultRisen = { s with faultLow := false, motion := some (m.resumed s.clock) } := by
  rw [State.faultRisen, hm, Option.map_some, Motion.resume_eq_resumed]

end FaultLine

/-- Settles O46: a station with no fault of its own is cut off, any other keeps its state. -/
theorem faultFallMakesABystander : Obligations.FaultFallMakesABystander := by
  refine fun s hq => ⟨fun hf => ?_, fun hf => ?_⟩
  · have hfaulted : s.cutoff.faulted = true := (State.faulted_iff _).2 (.inr rfl)
    refine ⟨s.cutoff, ?_, s.cutoff_eq_interrupted, ?_, ?_, rfl, ?_, s.cutoff_fireOn⟩
    · rw [exec_faultFall_of_quiet hq, hf]
      rfl
    · simp [State.bystander, hf]
    · simp [State.holdsFault, hf]
    · simp [State.holdsPrdy, hfaulted]
  · rw [exec_faultFall_of_quiet hq, if_neg (by simpa using hf)]

/-- Settles O47: the rise at a boundary, with a motion that goes on, and with one that waits at its end. -/
theorem faultRiseResumes : Obligations.FaultRiseResumes := by
  intro s high hq hf hl
  have hrise := exec_faultRise_of_bystander high hq hf hl
  rw [State.faultRisen_waiting] at hrise
  refine ⟨fun hm => ?_, fun m hm h => ?_, fun m p hm hrow hend hhigh hp hb => ?_⟩
  · have hnot : ¬s.waiting = true := by simp [State.waiting, hm]
    rw [hrise, if_neg (fun h => hnot h.2), State.faultRisen_of_boundary hm]
  · have hnot : ¬(high = true ∧ s.waiting = true) := by
      rw [State.waiting_iff]
      rintro ⟨hhigh, m', hm', hend, hrow⟩
      cases hm.symm.trans hm'
      obtain h | h | h := h
      · exact absurd (h.symm.trans hhigh) nofun
      · exact h hend
      · exact h hrow
    rw [hrise, if_neg hnot, State.faultRisen_of_motion hm]
  · have hwaiting : s.waiting = true := s.waiting_iff.2 ⟨m, hm, hend, hrow⟩
    rw [hrise, if_pos ⟨hhigh, hwaiting⟩, State.faultRisen_of_motion hm]
    exact congrArg Host.Outcome.next (State.conclude_eq_concluded
      (s := { s with faultLow := false, motion := some (m.resumed s.clock) }) (m := m.resumed s.clock) rfl hp rfl hb)

end Sys2Proof.Machine
end

section
/-! The primary condition, the status byte and the sense snapshot (R141, R160 to R164), and SENSE. Settles O31 and O33. -/

namespace Sys2Proof.Machine

/-! ## The class and the primary condition -/

/-- The earliest fault of a class, where one is recorded (R162). -/
theorem find?_cls_eq_some {l pre post : List FaultKind} {f : FaultKind} {n : Nat} (hl : l = pre ++ f :: post) (hf : f.cls = n)
    (hpre : ∀ g ∈ pre, g.cls ≠ n) : l.find? (fun g => g.cls == n) = some f := by
  rw [hl]
  exact find?_append_first (by simpa using hpre) (by simpa using hf)

theorem find?_cls_eq_none {l : List FaultKind} {n : Nat} (h : ∀ g ∈ l, g.cls ≠ n) :
    l.find? (fun g => g.cls == n) = none := by
  simpa using h

theorem State.condition_of_class_zero {s : State} {pre post : List FaultKind} {f : FaultKind}
    (hs : s.faults = pre ++ f :: post) (hf : f.cls = 0) (hpre : ∀ g ∈ pre, g.cls ≠ 0) : s.condition = (0, f.code) := by
  rw [State.condition, find?_cls_eq_some hs hf hpre]

theorem State.condition_of_class_one {s : State} {pre post : List FaultKind} {f : FaultKind}
    (hs : s.faults = pre ++ f :: post) (h0 : ∀ g ∈ s.faults, g.cls ≠ 0) (hf : f.cls = 1) (hpre : ∀ g ∈ pre, g.cls ≠ 1) :
    s.condition = (1, f.code) := by
  rw [State.condition, find?_cls_eq_none h0, find?_cls_eq_some hs hf hpre]

/-- With no fault, OPERATOR STOP in STOPPED comes before a warning (R162). -/
theorem State.condition_of_stopped {s : State} (hf : s.faults = []) (hm : s.mode = .stopped) : s.condition = (1, 0x14) := by
  simp [State.condition, hf, hm]

theorem State.condition_of_warning {s : State} {w : Warning} {ws : List Warning} (hf : s.faults = []) (hm : s.mode ≠ .stopped)
    (hw : s.warnings = w :: ws) : s.condition = (2, w.code) := by
  simp [State.condition, hf, hm, hw]

theorem State.condition_of_nothing {s : State} (hf : s.faults = []) (hm : s.mode ≠ .stopped) (hw : s.warnings = []) :
    s.condition = (3, 0x00) := by
  simp [State.condition, hf, hm, hw]

theorem State.condition_class_le (s : State) : s.condition.1 ≤ 3 := by
  unfold State.condition
  split
  · exact Nat.zero_le 3
  · split
    · simp
    · split
      · simp
      · split <;> simp

/-- The arbitration value needs five bits (R162). -/
theorem State.arbitrationValue_bound (s : State) : s.condition.1 * 8 + s.straps.station.toNat ≤ 31 := by
  have hclass := s.condition_class_le
  have hstation := s.straps.station.isLt
  omega

theorem State.arbitrationValue_toNat (s : State) :
    s.arbitrationValue.toNat = s.condition.1 * 8 + s.straps.station.toNat := by
  have h := s.arbitrationValue_bound
  rw [State.arbitrationValue, BitVec.toNat_ofNat, Nat.mod_eq_of_lt (by omega)]

/-- Settles O31: the branches of the condition in the order of R162, and the value that they and the station number make. -/
theorem primaryConditionIsTheMostUrgent : Obligations.PrimaryConditionIsTheMostUrgent :=
  ⟨rfl, rfl, fun s => ⟨fun _ _ _ => State.condition_of_class_zero, fun _ _ _ => State.condition_of_class_one,
    State.condition_of_stopped, fun _ _ => State.condition_of_warning, State.condition_of_nothing,
    s.arbitrationValue_toNat, le_of_eq_of_le s.arbitrationValue_toNat s.arbitrationValue_bound⟩⟩

/-! ## Bytes by their bits -/

/-- A byte holds the bits that it is made of. -/
theorem byteOf_bits (b7 b6 b5 b4 b3 b2 b1 b0 : Bool) :
    let v := byteOf b7 b6 b5 b4 b3 b2 b1 b0
    v.getLsbD 7 = b7 ∧ v.getLsbD 6 = b6 ∧ v.getLsbD 5 = b5 ∧ v.getLsbD 4 = b4 ∧ v.getLsbD 3 = b3 ∧ v.getLsbD 2 = b2 ∧
      v.getLsbD 1 = b1 ∧ v.getLsbD 0 = b0 := by
  simp only [byteOf, BitVec.getLsbD_append, BitVec.getLsbD_ofBool]
  simp

theorem State.faulted_eq (s : State) : s.faulted = (s.faults != [] || s.faultLow) := by
  cases hf : s.faults <;> simp [State.faulted, hf]

/-- Sense byte 6 by its bits (R164). -/
theorem warnedByte_getLsbD (ws : List Warning) (w : Warning) : (warnedByte ws).getLsbD w.bit = ws.contains w := by
  obtain ⟨h7, h6, h5, h4, h3, h2, h1, h0⟩ := byteOf_bits (ws.contains .stationStarted) (ws.contains .orderError)
    (ws.contains .loadRejected) (ws.contains .longRecord) (ws.contains .shortRecord) (ws.contains .channelAbsent)
    (ws.contains .dataCheckBlanked) (ws.contains .layerOverflow)
  cases w <;> assumption

/-- Sense byte 2 by its bits, from the mode and the three conditions that it reports (R164). -/
theorem senseBits (m : Mode) : ∀ stop motion fault : Bool,
    let v := BitVec.ofNat 8 (m.nibble + (if stop then 0x20 else 0) + (if motion then 0x40 else 0) + (if fault then 0x80 else 0))
    v.getLsbD 7 = fault ∧ v.getLsbD 6 = motion ∧ v.getLsbD 5 = stop ∧ v.getLsbD 4 = false ∧ v.toNat % 16 = m.nibble := by
  cases m <;> decide

/-- Sense bytes 4 and 5 make up the form count (R164). -/
theorem formCount_bytes (c : BitVec 16) :
    (c.setWidth 8).toNat = c.toNat % 256 ∧ ((c >>> 8).setWidth 8).toNat = c.toNat / 256 := by
  have h := c.isLt
  refine ⟨BitVec.toNat_setWidth 8 c, ?_⟩
  rw [BitVec.toNat_setWidth, BitVec.toNat_ushiftRight, Nat.shiftRight_eq_div_pow]
  omega

theorem State.oldestByte_of_queue {s : State} {c : Composite} {rest : List Composite} (h : s.queue = c :: rest) :
    s.oldestByte.toNat = c.seq.toNat := by
  have hseq := c.seq.isLt
  rw [State.oldestByte, h]
  exact (BitVec.toNat_setWidth 8 c.seq).trans (Nat.mod_eq_of_lt (by omega))

theorem State.oldestByte_of_empty {s : State} (h : s.queue = []) : s.oldestByte = 0xFF := by
  rw [State.oldestByte, h]

/-! ## SENSE -/

theorem exec_sense_of_answers {s : State} (hq : s.quiet = true) (ha : s.answers = true) :
    exec .sense s = .next { s.strobed with senseRead := some { snapshot := s.snapshot, kinds := s.warnings } } :=
  congrArg Host.Outcome.next ((strobeOrder_control .sense s).trans
    ((strobeControl_taken State.senseOrder State.senseOrder hq ha).trans (ite_self _)))

/-- Settles O33: the sense read holds `State.snapshot`, whose bytes are those of the lemmas above. -/
theorem senseFixesTheSnapshot : Obligations.SenseFixesTheSnapshot := by
  refine ⟨fun s hq ha => ?_, fun s hq ha => ⟨s.snapshot, exec_sense_of_answers hq ha, rfl, rfl, ?_⟩⟩
  · exact congrArg Host.Outcome.next ((strobeOrder_control .sense s).trans
      ((strobeControl_passed State.senseOrder State.senseOrder hq ha).trans (State.writeRise_of_silent ha)))
  · obtain ⟨h7, h6, h5, h4, hmode⟩ := senseBits s.mode s.stops.any s.motion.isSome s.faulted
    obtain ⟨hlow, hhigh⟩ := formCount_bytes s.formCount
    exact ⟨h7.trans s.faulted_eq, h6, h5, h4, hmode.trans (by cases s.mode <;> rfl), rfl, hlow, hhigh,
      warnedByte_getLsbD s.warnings, fun c rest => State.oldestByte_of_queue, State.oldestByte_of_empty⟩

end Sys2Proof.Machine
end

section
/-! The settling of an arbitration read (R165, R168): by induction on the lines still to settle, from line 4 downward. -/

namespace Sys2Proof.Machine

/-! ## One line -/

section Line
variable (own : Byte) (p : Peers) (n : Nat) (mine theirs : Bool)

/-- The level that line `n` comes to: low where a side that still drives it, or a station outside the sense read, drives a 0 (R165,
R168). -/
def lineLevel : Bool := (!mine || own.getLsbD n) && (!theirs || p.lowest.getLsbD n) && p.held.getLsbD n

/-- What is left of a side after a line: one that drives a 1 and finds the line low withdraws (R165). -/
def stays (side bit level : Bool) : Bool := side && !(bit && !level)

/-- The settling of the lines below `n`, after that of line `n`. -/
def settleBelow : Byte × Byte :=
  settleLines.go own p n (stays mine (own.getLsbD n) (lineLevel own p n mine theirs))
    (stays theirs (p.lowest.getLsbD n) (lineLevel own p n mine theirs))

theorem settle_succ :
    settleLines.go own p (n + 1) mine theirs =
      ((if lineLevel own p n mine theirs then BitVec.twoPow 8 n else 0) ||| (settleBelow own p n mine theirs).1,
        (if !mine || own.getLsbD n then BitVec.twoPow 8 n else 0) ||| (settleBelow own p n mine theirs).2) := rfl

end Line

section Settling
variable {own : Byte} {p : Peers} {n k : Nat} {mine theirs : Bool}

/-- A byte whose bit `n` is given beside those of `x`. -/
theorem getLsbD_with_line (b : Bool) (x : Byte) (k : Nat) (hn : n < 8) :
    ((if b then BitVec.twoPow 8 n else 0) ||| x).getLsbD k = (b && decide (n = k) || x.getLsbD k) := by
  cases b <;> simp [hn]

/-- Neither the byte on the lines nor what the station drives of it has a bit at or above line `n`. -/
theorem settle_above (hn : n ≤ 8) (hk : n ≤ k) :
    (settleLines.go own p n mine theirs).1.getLsbD k = false ∧ (settleLines.go own p n mine theirs).2.getLsbD k = false := by
  induction n generalizing mine theirs with
  | zero => simp [settleLines.go]
  | succ n ih =>
    have hbelow : (settleBelow own p n mine theirs).1.getLsbD k = false ∧ (settleBelow own p n mine theirs).2.getLsbD k = false :=
      ih (by omega) (by omega)
    rw [settle_succ, getLsbD_with_line _ _ _ hn, getLsbD_with_line _ _ _ hn, hbelow.1, hbelow.2,
      decide_eq_false (Nat.ne_of_lt hk)]
    simp

/-- The line that settles first. -/
theorem settle_at (hn : n < 8) :
    (settleLines.go own p (n + 1) mine theirs).1.getLsbD n = lineLevel own p n mine theirs ∧
      (settleLines.go own p (n + 1) mine theirs).2.getLsbD n = (!mine || own.getLsbD n) := by
  have hbelow : (settleBelow own p n mine theirs).1.getLsbD n = false ∧ (settleBelow own p n mine theirs).2.getLsbD n = false :=
    settle_above (Nat.le_of_lt hn) (Nat.le_refl n)
  rw [settle_succ, getLsbD_with_line _ _ _ hn, getLsbD_with_line _ _ _ hn, hbelow.1, hbelow.2]
  simp

/-- The lines below the first. -/
theorem settle_below (hn : n < 8) (hk : k < n) :
    (settleLines.go own p (n + 1) mine theirs).1.getLsbD k = (settleBelow own p n mine theirs).1.getLsbD k ∧
      (settleLines.go own p (n + 1) mine theirs).2.getLsbD k = (settleBelow own p n mine theirs).2.getLsbD k := by
  rw [settle_succ, getLsbD_with_line _ _ _ hn, getLsbD_with_line _ _ _ hn, decide_eq_false (Nat.ne_of_gt hk)]
  simp

/-! ## What the station drives in the end -/

/-- The station releases a line that it drives as 1, and every line below one that it drives as 1 and finds low (R165, R169). -/
theorem settle_drives_iff (hn : n ≤ 8) (hk : k < n) :
    (settleLines.go own p n mine theirs).2.getLsbD k = true ↔
      mine = false ∨ own.getLsbD k = true ∨ ∃ j, k < j ∧ j < n ∧ own.getLsbD j = true ∧
        (settleLines.go own p n mine theirs).1.getLsbD j = false := by
  induction n generalizing mine theirs with
  | zero => omega
  | succ n ih =>
    obtain ⟨hlevel, hdriven⟩ := settle_at (own := own) (p := p) (mine := mine) (theirs := theirs) hn
    obtain rfl | hk : k = n ∨ k < n := by omega
    · have hnone : ¬∃ j, k < j ∧ j < k + 1 ∧ own.getLsbD j = true ∧
          (settleLines.go own p (k + 1) mine theirs).1.getLsbD j = false := by
        rintro ⟨j, hj, hj', -⟩
        omega
      rw [hdriven, or_iff_left hnone]
      simp
    · have hwithdrawn : stays mine (own.getLsbD n) (lineLevel own p n mine theirs) = false ↔
          mine = false ∨ own.getLsbD n = true ∧ (settleLines.go own p (n + 1) mine theirs).1.getLsbD n = false := by
        rw [hlevel]
        cases mine <;> simp [stays]
      rw [(settle_below hn hk).2, settleBelow, ih (Nat.le_of_succ_le hn) hk, hwithdrawn]
      constructor
      · rintro ((h | h) | h | ⟨j, hj, hjn, h, h'⟩)
        · exact .inl h
        · exact .inr (.inr ⟨n, hk, by omega, h⟩)
        · exact .inr (.inl h)
        · exact .inr (.inr ⟨j, hj, by omega, h, (settle_below hn hjn).1.trans h'⟩)
      · rintro (h | h | ⟨j, hj, hjn, h, h'⟩)
        · exact .inl (.inl h)
        · exact .inr (.inl h)
        · obtain rfl | hjn : j = n ∨ j < n := by omega
          · exact .inl (.inr ⟨h, h'⟩)
          · exact .inr (.inr ⟨j, hj, hjn, h, (settle_below hn hjn).1.symm.trans h'⟩)

/-! ## Who wins -/

/-- The lowest bits of a byte, split at bit `n`. -/
theorem toNat_mod_succ (x : Byte) (n : Nat) :
    x.toNat % 2 ^ (n + 1) = x.toNat % 2 ^ n + (if x.getLsbD n then 2 ^ n else 0) := by
  rw [Nat.mod_pow_succ, ← Nat.toNat_testBit, BitVec.getLsbD]
  cases x.toNat.testBit n <;> simp

/-- The lines come to the value of a station that has not withdrawn exactly where the peers that still drive them offer nothing
lower and no station outside the sense read holds low a line that it drives as 1 (R165, R168). -/
theorem settle_agrees_iff (hn : n ≤ 8) :
    (∀ k < n, (settleLines.go own p n true theirs).1.getLsbD k = own.getLsbD k) ↔
      (∀ k < n, own.getLsbD k = true → p.held.getLsbD k = true) ∧
        (theirs = true → own.toNat % 2 ^ n ≤ p.lowest.toNat % 2 ^ n) := by
  induction n generalizing theirs with
  | zero => simp [Nat.mod_one]
  | succ n ih =>
    have hown : own.toNat % 2 ^ n < 2 ^ n := Nat.mod_lt _ (Nat.two_pow_pos n)
    have hpeers : p.lowest.toNat % 2 ^ n < 2 ^ n := Nat.mod_lt _ (Nat.two_pow_pos n)
    have hsplit : (∀ k < n + 1, (settleLines.go own p (n + 1) true theirs).1.getLsbD k = own.getLsbD k) ↔
        lineLevel own p n true theirs = own.getLsbD n ∧
          ∀ k < n, (settleBelow own p n true theirs).1.getLsbD k = own.getLsbD k := by
      rw [Nat.forall_lt_succ_right, (settle_at hn).1, and_comm]
      exact and_congr_right fun _ => forall₂_congr fun k hk => by rw [(settle_below hn hk).1]
    rw [hsplit, Nat.forall_lt_succ_right, toNat_mod_succ, toNat_mod_succ, settleBelow]
    cases ho : own.getLsbD n with
    | false =>
      have hlevel : lineLevel own p n true theirs = false := by simp [lineLevel, ho]
      rw [hlevel, show stays true false false = true from rfl, ih (Nat.le_of_succ_le hn)]
      cases p.lowest.getLsbD n with
      | false => simp [stays]
      | true =>
        have hlower : own.toNat % 2 ^ n ≤ p.lowest.toNat % 2 ^ n + 2 ^ n := by omega
        simp [stays, hlower]
    | true =>
      cases hlevel : lineLevel own p n true theirs with
      | false =>
        have hfound : p.held.getLsbD n = true → theirs = true ∧ p.lowest.getLsbD n = false := by
          intro hh
          simpa [lineLevel, ho, hh] using hlevel
        refine iff_of_false (fun h => absurd h.1 nofun) fun ⟨⟨_, hh⟩, hle⟩ => ?_
        obtain ⟨htheirs, hl⟩ := hfound (hh rfl)
        have hle := hle htheirs
        simp only [hl, if_true, Bool.false_eq_true, if_false] at hle
        omega
      | true =>
        obtain ⟨hl, hh⟩ : (theirs = false ∨ p.lowest.getLsbD n = true) ∧ p.held.getLsbD n = true := by
          simpa [lineLevel, ho] using hlevel
        rw [show stays true true true = true from rfl, show stays theirs (p.lowest.getLsbD n) true = theirs by simp [stays],
          ih (Nat.le_of_succ_le hn)]
        obtain hl | hl := hl <;> simp [hl, hh]

/-- The station and the lowest of its peers are alike to the lines. -/
theorem settle_comm (n : Nat) (mine theirs : Bool) :
    (settleLines.go own p n mine theirs).1 =
      (settleLines.go p.lowest { p with lowest := own } n theirs mine).1 := by
  induction n generalizing mine theirs with
  | zero => rfl
  | succ n ih =>
    have hlevel : lineLevel p.lowest { p with lowest := own } n theirs mine = lineLevel own p n mine theirs := by
      rw [lineLevel, lineLevel, Bool.and_comm (!theirs || p.lowest.getLsbD n)]
    rw [settle_succ, settle_succ, settleBelow, settleBelow, hlevel, ih]

end Settling

/-! ## The settled byte -/

theorem getLsbD_of_five_bits {x : Byte} (h : x.toNat ≤ 31) {k : Nat} (hk : 5 ≤ k) : x.getLsbD k = false :=
  Nat.testBit_lt_two_pow (Nat.lt_of_le_of_lt h
    (Nat.lt_of_lt_of_le (by decide : 31 < 2 ^ 5) (Nat.pow_le_pow_right (by decide) hk)))

theorem and_eq_left_iff (x y : Byte) : x &&& y = x ↔ ∀ k, x.getLsbD k = true → y.getLsbD k = true := by
  constructor
  · intro h k hk
    have hboth := congrArg (·.getLsbD k) h
    simpa [hk] using hboth
  · intro h
    refine BitVec.eq_of_getLsbD_eq fun k _ => ?_
    rw [BitVec.getLsbD_and]
    cases hx : x.getLsbD k with
    | false => rfl
    | true => exact h k hx

/-- A station wins exactly where no peer offers a lower value and no station outside the sense read holds low a line that it drives
as 1 (R165, R168). -/
theorem arbitrate_eq_own_iff {own : Byte} {p : Peers} (ho : own.toNat ≤ 31) (hp : p.lowest.toNat ≤ 31 ∨ p.lowest = 0xFF) :
    arbitrate own p = own ↔ own.toNat ≤ p.lowest.toNat ∧ own &&& p.held = own := by
  have hlowest : own.toNat % 2 ^ 5 ≤ p.lowest.toNat % 2 ^ 5 ↔ own.toNat ≤ p.lowest.toNat := by
    obtain h | h := hp
    · omega
    · rw [h]
      have : (0xFF : Byte).toNat = 255 := rfl
      omega
  have hbits : arbitrate own p = own ↔ ∀ k < 5, (arbitrate own p).getLsbD k = own.getLsbD k := by
    refine ⟨fun h k _ => by rw [h], fun h => BitVec.eq_of_getLsbD_eq fun k _ => ?_⟩
    by_cases hk : k < 5
    · exact h k hk
    · rw [getLsbD_of_five_bits ho (by omega)]
      exact (settle_above (by decide) (by omega)).1
  have hheld : (∀ k < 5, own.getLsbD k = true → p.held.getLsbD k = true) ↔ own &&& p.held = own := by
    rw [and_eq_left_iff]
    refine ⟨fun h k hk => ?_, fun h k _ => h k⟩
    by_cases h5 : k < 5
    · exact h k h5 hk
    · rw [getLsbD_of_five_bits ho (by omega)] at hk
      exact absurd hk nofun
  rw [hbits, ← hlowest, ← hheld, and_comm]
  exact (settle_agrees_iff (by decide)).trans (and_congr_right fun _ => by simp)

/-- A byte with every line released holds nothing low. -/
theorem and_allReleased (x : Byte) : x &&& 0xFF = x := BitVec.and_allOnes

/-- With no station outside the sense read the lines come to the lower value (R165). -/
theorem arbitrate_eq_min {own lowest : Byte} (ho : own.toNat ≤ 31) (hl : lowest.toNat ≤ 31 ∨ lowest = 0xFF) :
    (arbitrate own { lowest := lowest }).toNat = min own.toNat lowest.toNat := by
  obtain h | h := Nat.le_total own.toNat lowest.toNat
  · rw [(arbitrate_eq_own_iff ho hl).2 ⟨h, and_allReleased own⟩, Nat.min_eq_left h]
  · have hcomm : arbitrate own { lowest := lowest } = arbitrate lowest { lowest := own } := settle_comm 5 true true
    rw [hcomm, (arbitrate_eq_own_iff (Nat.le_trans h ho) (.inl ho)).2 ⟨h, and_allReleased lowest⟩, Nat.min_eq_right h]

/-- A station with no peer drives its value to the end (R165). -/
theorem withdrawn_alone {own : Byte} (ho : own.toNat ≤ 31) : withdrawn own {} = own := by
  have hwins : arbitrate own {} = own :=
    (arbitrate_eq_own_iff ho (.inr rfl)).2 ⟨Nat.le_of_lt_succ own.isLt, and_allReleased own⟩
  refine BitVec.eq_of_getLsbD_eq fun k _ => ?_
  by_cases hk : k < 5
  · rw [Bool.eq_iff_iff]
    refine (settle_drives_iff (by decide) hk).trans ⟨?_, fun h => .inr (.inl h)⟩
    rintro (h | h | ⟨j, -, -, h, h'⟩)
    · exact absurd h nofun
    · exact h
    · exact absurd (h.symm.trans ((congrArg (·.getLsbD j) hwins).symm.trans h')) nofun
  · rw [getLsbD_of_five_bits ho (by omega)]
    exact (settle_above (by decide) (by omega)).2

end Sys2Proof.Machine
end

section
/-! The reads of a sense read and the fall of PSTR (R157, R160, R165 to R169), and the frame of the data lines. Settles O32, O34 and
O35. -/

namespace Sys2Proof.Machine

/-! ## What the read rows do -/

section Reads
variable {s : State} {r : SenseRead}

theorem State.readTaken_iff (s : State) : s.readTaken = true ↔ s.answers = true ∧ s.strobe ≠ .read false := by
  simp [State.readTaken]

/-- A read strobe that the station does not answer is over with the sense read as it was (R166). -/
theorem State.readTaken_eq_false (h : s.answers = false ∨ s.strobe = .read false) : s.readTaken = false := by
  obtain h | h := h <;> simp [State.readTaken, h]

/-- An arbitration read strobe outside a sense read is over, and nothing else changes (R168, log 17). -/
theorem exec_arbitrationRead_of_status (p : Peers) (hq : s.quiet = true) (hs : s.senseRead = none) :
    exec (.arbitrationRead p) s = .next s.readOver := by
  show execArbitrationRead p s = _
  unfold execArbitrationRead
  rw [State.catchUp_of_quiet hq]
  dsimp only
  rw [hs]

/-- In a sense read an arbitration read strobe counts at index 0 of a station that answers (R165, R166). -/
theorem exec_arbitrationRead_of_sense (p : Peers) (hq : s.quiet = true) (hs : s.senseRead = some r) :
    exec (.arbitrationRead p) s = .next
      (if s.readTaken ∧ r.index = 0 then
        { s.readOver with
          senseRead := some { r with index := 1, winner := arbitrate r.snapshot.arbitration p == r.snapshot.arbitration } }
      else s.readOver) := by
  show execArbitrationRead p s = _
  unfold execArbitrationRead
  rw [State.catchUp_of_quiet hq]
  dsimp only
  rw [hs]
  exact (apply_ite Host.Outcome.next _ _ _).symm

/-- A sense record read strobe outside a sense read is over, and nothing else changes (R168, log 17). -/
theorem exec_senseRecordRead_of_status (hq : s.quiet = true) (hs : s.senseRead = none) :
    exec .senseRecordRead s = .next s.readOver := by
  show execSenseRecordRead s = _
  unfold execSenseRecordRead
  rw [State.catchUp_of_quiet hq]
  dsimp only
  rw [hs]

/-- In a sense read a record read strobe counts from index 1 on at a station that answers: the index advances up to 8, and a
winner's read of byte 7 consumes (R166, R167). -/
theorem exec_senseRecordRead_of_sense (hq : s.quiet = true) (hs : s.senseRead = some r) :
    exec .senseRecordRead s = .next
      (if s.readTaken ∧ 1 ≤ r.index then
        { s.readOver with
          senseRead := some { r with index := if r.index < 8 then r.index + 1 else 8 }
          warnings := if r.index = 7 ∧ r.winner then s.warnings.filter fun w => !r.kinds.contains w else s.warnings }
      else s.readOver) := by
  show execSenseRecordRead s = _
  unfold execSenseRecordRead
  rw [State.catchUp_of_quiet hq]
  dsimp only
  rw [hs]
  dsimp only
  by_cases hc : r.index = 7 ∧ r.winner = true
  · simp only [if_pos hc]
    exact (apply_ite Host.Outcome.next _ _ _).symm
  · simp only [if_neg hc]
    exact (apply_ite Host.Outcome.next _ _ _).symm

theorem exec_arbitrationRead_unanswered (p : Peers) (hq : s.quiet = true) (h : s.readTaken = false) :
    exec (.arbitrationRead p) s = .next s.readOver := by
  cases hs : s.senseRead with
  | none => exact exec_arbitrationRead_of_status p hq hs
  | some r => rw [exec_arbitrationRead_of_sense p hq hs, if_neg (by simp [h])]

theorem exec_senseRecordRead_unanswered (hq : s.quiet = true) (h : s.readTaken = false) :
    exec .senseRecordRead s = .next s.readOver := by
  cases hs : s.senseRead with
  | none => exact exec_senseRecordRead_of_status hq hs
  | some r => rw [exec_senseRecordRead_of_sense hq hs, if_neg (by simp [h])]

end Reads

/-- Settles O34: the settled value, a read strobe that is not answered, and the arbitration read of one that is. -/
theorem lowestValueWins : Obligations.LowestValueWins := by
  refine ⟨fun own lowest => arbitrate_eq_min, fun s p hq h => exec_arbitrationRead_unanswered p hq (State.readTaken_eq_false h),
    fun s r p hq ha hb hs hi hv hp => ?_⟩
  have hwinner : (arbitrate r.snapshot.arbitration p == r.snapshot.arbitration) = decide
      (r.snapshot.arbitration.toNat ≤ p.lowest.toNat ∧ r.snapshot.arbitration &&& p.held = r.snapshot.arbitration) :=
    decide_eq_decide.2 (arbitrate_eq_own_iff hv hp)
  rw [exec_arbitrationRead_of_sense p hq hs, if_pos ⟨s.readTaken_iff.2 ⟨ha, hb⟩, hi⟩, hwinner]
  rfl

/-- Settles O35: a read strobe by whether it is answered, and by the index that it reads. -/
theorem readOfByteSevenConsumes : Obligations.ReadOfByteSevenConsumes := by
  refine ⟨fun s hq h => exec_senseRecordRead_unanswered hq (State.readTaken_eq_false h), fun s r hq ha hb hs => ?_⟩
  have hread (h1 : 1 ≤ r.index) := (exec_senseRecordRead_of_sense hq hs).trans
    (congrArg Host.Outcome.next (if_pos ⟨s.readTaken_iff.2 ⟨ha, hb⟩, h1⟩))
  refine ⟨fun h1 h6 => ?_, fun h7 => ?_, fun h8 => ?_⟩
  · have hkept : ¬(r.index = 7 ∧ r.winner = true) := by omega
    have hlow : r.index < 8 := by omega
    rw [hread h1, if_neg hkept, if_pos hlow]
    rfl
  · rw [hread (by omega), h7]
    simp [State.readOver]
  · have hkept : ¬(r.index = 7 ∧ r.winner = true) := by omega
    rw [hread (by omega), if_neg hkept, if_neg (Nat.not_lt.2 h8)]
    rfl

/-! ## The fall of PSTR -/

section Fall
variable {s : State} {r : SenseRead}

theorem exec_pstrFall_write (hq : s.quiet = true) : exec (.pstrFall .write) s = .next { s with strobe := .write, pd := 0xFF } := by
  show execPstrFall .write s = _
  rw [execPstrFall, State.catchUp_of_quiet hq]

theorem exec_pstrFall_read (p : Peers) (hq : s.quiet = true) :
    exec (.pstrFall (.read p)) s = .next
      { s with strobe := .read s.answers, pd := if s.answers then s.readByte p else 0xFF } := by
  show execPstrFall (.read p) s = _
  rw [execPstrFall, State.catchUp_of_quiet hq]

/-- A read strobe that the station answers drives the byte that it owes (R160, R166). -/
theorem exec_pstrFall_answered (p : Peers) (hq : s.quiet = true) (ha : s.answers = true) {b : Byte} (hb : s.readByte p = b) :
    exec (.pstrFall (.read p)) s = .next { s with strobe := .read true, pd := b } := by
  rw [exec_pstrFall_read p hq, ha, hb]
  rfl

theorem State.readByte_of_status (p : Peers) (h : s.senseRead = none) : s.readByte p = s.statusByte := by
  rw [State.readByte, h]

theorem State.readByte_of_first (p : Peers) (h : s.senseRead = some r) (hi : r.index = 0) :
    s.readByte p = withdrawn r.snapshot.arbitration p := by
  rw [State.readByte, h]
  exact if_pos hi

theorem State.readByte_of_loser (p : Peers) (h : s.senseRead = some r) (hi : 1 ≤ r.index) (hw : r.winner = false) :
    s.readByte p = 0xFF := by
  rw [State.readByte, h]
  simp [Nat.ne_of_gt hi, hw]

theorem State.readByte_of_winner (p : Peers) (h : s.senseRead = some r) (hi : 1 ≤ r.index) (hw : r.winner = true) :
    s.readByte p = r.snapshot.byte r.index := by
  rw [State.readByte, h]
  simp [Nat.ne_of_gt hi, hw]

/-- Beyond byte 7 nothing is driven (R166). -/
theorem Snapshot.byte_beyond (t : Snapshot) {i : Nat} (h : 8 ≤ i) : t.byte i = 0xFF := by
  unfold Snapshot.byte
  split
  case h_9 => rfl
  all_goals omega

/-- The status byte by its bits (R160, R163). -/
theorem State.statusByte_bits (s : State) :
    s.statusByte.getLsbD 7 = !(s.faults != [] || s.faultLow) ∧
      s.statusByte.getLsbD 6 = !(s.mode == .forming || s.mode == .stopped) ∧
      s.statusByte.getLsbD 5 = !(s.mode == .held) ∧
      s.statusByte.getLsbD 4 = !s.overflow ∧
      s.statusByte.getLsbD 3 = (s.condition.1 == 3) ∧
      s.statusByte.getLsbD 2 = !(s.queue != [] || s.motion.isSome) ∧
      s.statusByte.getLsbD 1 = (s.parser.state == .idle) ∧
      s.statusByte.getLsbD 0 = (s.inputBuffer == []) := by
  obtain ⟨h7, h6, h5, h4, h3, h2, h1, h0⟩ := byteOf_bits (!s.faulted) (!(s.mode == .forming || s.mode == .stopped))
    (!(s.mode == .held)) (!s.overflow) (!(s.condition.1 != 3)) (!(!s.queue.isEmpty || s.motion.isSome))
    (!(s.parser.state != .idle)) (!(!s.inputBuffer.isEmpty))
  have hqueue : (!s.queue.isEmpty) = (s.queue != []) := by cases s.queue <;> rfl
  have hbuffer : (!(!s.inputBuffer.isEmpty)) = (s.inputBuffer == []) := by cases s.inputBuffer <;> rfl
  exact ⟨h7.trans (congrArg _ s.faulted_eq), h6, h5, h4, h3.trans (Bool.not_not _), h2.trans (by rw [hqueue]),
    h1.trans (Bool.not_not _), h0.trans hbuffer⟩

end Fall

/-! ## The frame of the data lines: what no event but one of the port changes -/

/-- What the station drives on the data lines, with the strobe for which it does (R157, R169). -/
def State.portLines (s : State) : Byte × Strobe := (s.pd, s.strobe)

theorem State.momentFrame.portLines {s t : State} (h : s.momentFrame t) : t.portLines = s.portLines := by
  rw [h]
  rfl

/-- A choice between two states with the same lines. -/
theorem State.ite_portLines {c : Prop} [Decidable c] {s t : State} {x : Byte × Strobe} (hs : s.portLines = x)
    (ht : t.portLines = x) : (if c then s else t).portLines = x := by
  split
  · exact hs
  · exact ht

section Operations
variable (s : State)

theorem State.departOldest_portLines : s.departOldest.portLines = s.portLines := by
  obtain ⟨-, h⟩ | ⟨c, rest, -, h⟩ := s.departOldest_cases <;> rw [h]
  rfl

theorem State.freeOldestBuffer_portLines : s.freeOldestBuffer.portLines = s.portLines := by
  obtain ⟨-, h⟩ | ⟨c, rest, -, h⟩ := s.freeOldestBuffer_cases <;> rw [h]
  rfl

theorem State.withdraw_portLines : s.withdraw.portLines = s.portLines := by
  unfold State.withdraw
  split <;> rfl

theorem State.applyStops_portLines : s.applyStops.portLines = s.portLines := State.ite_portLines rfl rfl

theorem State.addStop_portLines (t : Stop) : (s.addStop t).portLines = s.portLines := by
  obtain ⟨-, h⟩ | ⟨m, -, -, h⟩ | ⟨m, -, -, h⟩ := s.addStop_cases t <;> rw [h]
  · exact State.applyStops_portLines _
  · exact (State.applyStops_portLines _).trans (State.withdraw_portLines _)
  · rfl

theorem State.applyPlan_portLines : s.applyPlan.portLines = s.portLines := by
  unfold State.applyPlan
  split <;> rfl

theorem State.conclude_portLines : s.conclude.portLines = s.portLines := by
  obtain hm | ⟨m, hm⟩ := Option.eq_none_or_eq_some s.motion
  · rw [State.conclude, hm]
  · rw [State.conclude_of_motion hm]
    exact (State.applyStops_portLines _).trans (State.ite_portLines s.applyPlan_portLines
      ((State.departOldest_portLines _).trans s.applyPlan_portLines))

theorem State.abandonMotion_portLines : s.abandonMotion.portLines = s.portLines := by
  obtain hm | ⟨m, hm⟩ := Option.eq_none_or_eq_some s.motion
  · rw [State.abandonMotion_of_boundary hm]
  · rw [State.abandonMotion_of_motion hm]
    exact State.ite_portLines (s := s) rfl s.departOldest_portLines

theorem State.removeComposites_portLines (fires : Bool) : (s.removeComposites fires).portLines = s.portLines := by
  obtain ⟨-, h⟩ | ⟨m, -, -, h⟩ | ⟨m, -, -, -, h⟩ | ⟨m, c, rest, -, -, -, -, h⟩ := s.removeComposites_cases fires
  all_goals rw [h]
  · rfl
  · rfl
  · rfl
  · exact State.ite_portLines rfl rfl

theorem State.portReset_portLines : s.portReset.portLines = s.portLines := by
  have hremoved := s.removeComposites_portLines true
  unfold State.portReset
  generalize s.removeComposites true = t at hremoved ⊢
  exact hremoved

theorem State.breakBar_portLines : s.breakBar.portLines = s.portLines := by
  rw [State.breakBar_eq]
  exact State.ite_portLines (s := s.barDropped.recordFault .frameSkew) rfl rfl

theorem State.readSensors_portLines : s.readSensors.portLines = s.portLines := by
  have hcover : (if s.inputs.coverClosed then s else s.recordFault .coverOpen).portLines = s.portLines :=
    State.ite_portLines rfl rfl
  exact State.ite_portLines hcover ((State.addStop_portLines _ _).trans hcover)

theorem State.stopKey_portLines : s.stopKey.portLines = s.portLines := by
  unfold State.stopKey
  split
  · exact s.addStop_portLines .kstop
  · rfl
  · unfold State.stopFeed
    split
    · exact State.ite_portLines s.withdraw_portLines rfl
    · rfl
  · rfl
  · rfl

end Operations

/-- Wherever an outcome is a next state, its lines are those of `s`. -/
def State.keepsLines (s : State) (o : Host.Outcome State Fault Refusal) : Prop := ∀ t, o = .next t → t.portLines = s.portLines

section Commands
variable {s : State}

theorem State.keepsLines.next {t : State} (h : t.portLines = s.portLines) : s.keepsLines (.next t) := by
  rintro _ ⟨⟩
  exact h

theorem State.keepsLines.ite {c : Prop} [Decidable c] {o o' : Host.Outcome State Fault Refusal} (h : s.keepsLines o)
    (g : s.keepsLines o') : s.keepsLines (if c then o else o') := by
  split
  · exact h
  · exact g

/-- What an event does, it does after the steps due (log 5). -/
theorem State.keepsLines.ofCatchUp {o : Host.Outcome State Fault Refusal} (h : s.catchUp.keepsLines o) : s.keepsLines o :=
  fun t ht => (h t ht).trans s.catchUp_momentFrame.portLines

/-- The rows of an interval, a pulse or a render that may be running: each either is, or leaves the state as it is. -/
theorem exec_running_keepsLines {i : Instr}
    (hi : i ∈ [.startIntervalExpiry, .formingIntervalExpiry, .stepPulseEnd, .frameHoldDelay, .renderCompletion]) :
    s.keepsLines (exec i s) := by
  simp only [List.mem_cons, List.not_mem_nil, or_false] at hi
  refine .ofCatchUp ?_
  obtain rfl | rfl | rfl | rfl | rfl := hi
  · dsimp only [exec, execStartIntervalExpiry]
    split <;> exact .next rfl
  · dsimp only [exec, execFormingIntervalExpiry]
    split
    · exact .next (State.readSensors_portLines _)
    · exact .next rfl
  · dsimp only [exec, execStepPulseEnd]
    split <;> exact .next rfl
  · dsimp only [exec, execFrameHoldDelay]
    split <;> exact .next rfl
  · dsimp only [exec, execRenderCompletion]
    split <;> exact .next rfl

theorem execStep_keepsLines : s.keepsLines (execStep s) := by
  refine .ofCatchUp (.ite (.next rfl) ?_)
  split
  · exact .ite (.next rfl) (.next rfl)
  · exact .next rfl

theorem execFirePulseStart_keepsLines : s.keepsLines (execFirePulseStart s) := by
  refine .ofCatchUp ?_
  dsimp only [execFirePulseStart]
  split
  · split
    · exact .ite (.next rfl) (.next rfl)
    · exact .next rfl
  · exact .next rfl

theorem execFirePulseEnd_keepsLines : s.keepsLines (execFirePulseEnd s) := by
  refine .ofCatchUp ?_
  dsimp only [execFirePulseEnd]
  split
  · split
    · exact .next (State.ite_portLines (State.freeOldestBuffer_portLines _) rfl)
    · exact .next rfl
  · exact .next rfl

theorem execFrameTimerExpiry_keepsLines : s.keepsLines (execFrameTimerExpiry s) := by
  refine .ofCatchUp ?_
  dsimp only [execFrameTimerExpiry]
  split
  · split <;> exact .next rfl
  · exact .next rfl

theorem execKtof_keepsLines : s.keepsLines (execKtof s) := by
  have restarted (u : State) : (u.abandonMotion.topOfForm.removeFaults tofClears).portLines = u.portLines :=
    u.abandonMotion_portLines
  exact .ofCatchUp (.ite (.next rfl) (.ite
    (.next (State.ite_portLines ((State.applyStops_portLines _).trans (restarted _)) (restarted _))) (.next rfl)))

/-- No command but one of the port, a fall of PINIT or a full reset changes what is driven (R160, R169). -/
theorem exec_keepsLines {i : Instr} (hp : strobesPort i = false) (hf : i ≠ .pinitFall) (hr : i ≠ .fullReset) :
    s.keepsLines (exec i s) := by
  cases i with
  | printSpace | printSkip | moveSpace | moveSkip | loadForm | loadCodes | loadGlyph | checkBlank | checkBlock
  | unknownOrder | dataByte | hold | discard | resume | sense | arbitrationRead | senseRecordRead | pstrFall => cases hp
  | pinitFall => exact absurd rfl hf
  | fullReset => exact absurd rfl hr
  | pinit => exact .ofCatchUp (.next (State.ite_portLines (State.portReset_portLines _) rfl))
  | startIntervalExpiry | formingIntervalExpiry | stepPulseEnd | frameHoldDelay | renderCompletion =>
    exact exec_running_keepsLines (by decide)
  | resetRelease | joinRise | coverClosed | paperPresent => exact .ofCatchUp (.ite (.next rfl) (.next rfl))
  | joinFall =>
    exact .ofCatchUp (.ite (.next rfl) (.ite (.next (State.breakBar_portLines _)) (.ite (.next rfl) (.next rfl))))
  | coverOpen | kstart | kfeed => exact .ofCatchUp (.ite (.next rfl) (.next (State.ite_portLines rfl rfl)))
  | paperAbsent => exact .ofCatchUp (.ite (.next rfl) (.next (State.ite_portLines (State.addStop_portLines _ _) rfl)))
  | kstop => exact .ofCatchUp (.ite (.next rfl) (.next (State.stopKey_portLines _)))
  | ktof => exact execKtof_keepsLines
  | faultFall | stepRelease => exact .ofCatchUp (.next (State.ite_portLines rfl rfl))
  | faultRise => exact .ofCatchUp (.ite (.next (State.ite_portLines (State.conclude_portLines _) rfl)) (.next rfl))
  | step => exact execStep_keepsLines
  | frameEvent => exact .ofCatchUp (.ite (.next (State.conclude_portLines _)) (.next rfl))
  | firePulseStart => exact execFirePulseStart_keepsLines
  | firePulseEnd => exact execFirePulseEnd_keepsLines
  | frameTimerExpiry => exact execFrameTimerExpiry_keepsLines
  | motionStart => exact .next s.startMotion_momentFrame.portLines
  | renderStart => exact .next s.startRender_momentFrame.portLines
  | placeGrant => exact .next s.grantPlace_momentFrame.portLines
  | drainEnd => exact .next s.endDrain_momentFrame.portLines

end Commands

/-- Settles O32: the withdrawal by `settle_drives_iff`, the frame by `exec_keepsLines`, and the byte that a read strobe drives by
the sense read and its index. -/
theorem strobeFallDrivesTheByte : Obligations.StrobeFallDrivesTheByte := by
  refine ⟨fun own p k hk => (settle_drives_iff (by decide) hk).trans (or_iff_right nofun),
    fun own p k hk => (settle_above (by decide) hk).2, fun own => withdrawn_alone, fun c s t hp hf hr h => ?_,
    fun s p hq hs => ⟨exec_arbitrationRead_of_status p hq hs, exec_senseRecordRead_of_status hq hs⟩,
    fun s p hq => ⟨exec_pstrFall_write hq, fun ha => ?_, fun ha hs => ?_, fun r ha hs => ?_⟩⟩
  · exact Prod.ext_iff.1 (exec_keepsLines hp hf hr t h)
  · rw [exec_pstrFall_read p hq, ha]
    rfl
  · exact ⟨exec_pstrFall_answered p hq ha (s.readByte_of_status p hs), s.statusByte_bits⟩
  · intro drives
    have hdrives {b : Byte} : s.readByte p = b → drives b := exec_pstrFall_answered p hq ha
    have hbyte (hw : r.winner = true) {i : Nat} (h1 : 1 ≤ i) (hi : r.index = i) : drives (r.snapshot.byte i) := by
      subst hi
      exact hdrives (s.readByte_of_winner p hs h1 hw)
    refine ⟨fun h0 => hdrives (s.readByte_of_first p hs h0), fun h1 hl => hdrives (s.readByte_of_loser p hs h1 hl),
      fun hw => ⟨hbyte hw (by decide), hbyte hw (by decide), hbyte hw (by decide), hbyte hw (by decide), hbyte hw (by decide),
        hbyte hw (by decide), hbyte hw (by decide), fun h8 => ?_⟩⟩
    rw [← r.snapshot.byte_beyond h8]
    exact hbyte hw (by omega) rfl

end Sys2Proof.Machine
end

section
/-! PINIT: the fall that closes the port, and the rise that resets its side of every block (R20, R61, R63, R139, R154, R157, R159).
Settles O36. -/

namespace Sys2Proof.Machine

/-! ## The removal of the composites, by the moment in the motion -/

section Removal
variable {s : State} {m : Motion}

/-- The state of a station with nothing queued (R19, R20). -/
def State.emptied (s : State) : State :=
  { s with counter := 0, render := none, queue := [], bufA := s.bufA.free, bufB := s.bufB.free }

theorem State.removeComposites_of_boundary (fires : Bool) (hm : s.motion = none) : s.removeComposites fires = s.emptied := by
  obtain ⟨-, e⟩ | ⟨m, h, -⟩ | ⟨m, h, -⟩ | ⟨m, c, rest, h, -⟩ := s.removeComposites_cases fires
  · exact e
  all_goals exact absurd (hm.symm.trans h) nofun

theorem State.removeComposites_of_unstepped (fires : Bool) (hm : s.motion = some m) (h0 : m.steps = 0) :
    s.removeComposites fires = s.emptied.dropMotion := by
  obtain ⟨h, -⟩ | ⟨m', -, -, e⟩ | ⟨m', h, h1, -⟩ | ⟨m', c, rest, h, h1, -⟩ := s.removeComposites_cases fires
  · exact absurd (hm.symm.trans h) nofun
  · exact e
  all_goals
    cases hm.symm.trans h
    omega

/-- A FEED that has stepped goes on (R61). -/
theorem State.removeComposites_of_feed (fires : Bool) (hm : s.motion = some m) (h1 : 1 ≤ m.steps) (hf : m.feed = true) :
    s.removeComposites fires = s.emptied := by
  obtain ⟨h, -⟩ | ⟨m', h, h0, -⟩ | ⟨m', -, -, -, e⟩ | ⟨m', c, rest, h, -, hf', -⟩ := s.removeComposites_cases fires
  · exact absurd (hm.symm.trans h) nofun
  · cases hm.symm.trans h
    omega
  · exact e
  · cases hm.symm.trans h
    exact absurd (hf.symm.trans hf') nofun

/-- Under PINIT a line that has stepped stays as sequence 127, with its buffer and its firing (R20, R63). -/
theorem State.removeComposites_of_line {c : Composite} {rest : List Composite} (hm : s.motion = some m) (h1 : 1 ≤ m.steps)
    (hf : m.feed = false) (hc : s.queue = c :: rest) :
    s.removeComposites true =
      { s.emptied with
        queue := [{ c with seq := 127 }]
        bufA := { s.bufA with holder := if s.bufA.holder = some c.seq then some 127 else none }
        bufB := { s.bufB with holder := if s.bufB.holder = some c.seq then some 127 else none } } := by
  obtain ⟨h, -⟩ | ⟨m', h, h0, -⟩ | ⟨m', h, -, hf' | hc', -⟩ | ⟨m', c', rest', -, -, -, hc', e⟩ := s.removeComposites_cases true
  · exact absurd (hm.symm.trans h) nofun
  · cases hm.symm.trans h
    omega
  · cases hm.symm.trans h
    exact absurd (hf.symm.trans hf') nofun
  · exact absurd (hc.symm.trans hc') nofun
  · cases hc.symm.trans hc'
    exact e

end Removal

/-! ## The port reset -/

/-- The faults that PINIT removes, as the statement writes them (R139). -/
theorem Inputs.pinitClears_eq (i : Inputs) (f : FaultKind) :
    i.pinitClears f =
      (f == .inputOverrun || f == .barBroken || f == .dataCheck || (f == .coverOpen && i.coverClosed) ||
        (f == .paperOut && i.paperPresent)) := by
  cases f with
  | coverOpen => exact (Bool.or_false _).symm
  | frameSkew | inputOverrun | barBroken | paperOut | dataCheck => rfl

/-- The state of a station after a port reset that leaves nothing queued (R20, R120, R139, R159). -/
def State.portCleared (s : State) : State :=
  { s.emptied with
    inputBuffer := [], parser := s.idleParser, senseRead := none, stops := {}
    faults := s.faults.filter fun f =>
      !(f == .inputOverrun || f == .barBroken || f == .dataCheck || (f == .coverOpen && s.inputs.coverClosed) ||
        (f == .paperOut && s.inputs.paperPresent))
    mode := if s.mode = .held then .online else s.mode }

/-- The port reset clears the same at every station; what it leaves of the queue, the buffers and the motion is left by the removal
of the composites, with BLOCKED cleared where DATA CHECK is removed (R3, R20, R139). -/
theorem State.portReset_of_removed {s t : State} (h : s.removeComposites true = t)
    (ht : t = { s with
      queue := t.queue, counter := t.counter, render := t.render, bufA := t.bufA, bufB := t.bufB
      motion := t.motion, plan := t.plan, stepDrive := t.stepDrive, frameDelay := t.frameDelay }) :
    s.portReset =
      { s.portCleared with
        queue := if s.faults.contains .dataCheck then unblock t.queue else t.queue
        counter := t.counter, render := t.render, bufA := t.bufA, bufB := t.bufB
        motion := t.motion, plan := t.plan, stepDrive := t.stepDrive, frameDelay := t.frameDelay } := by
  have hclears : s.inputs.pinitClears = fun f =>
      f == .inputOverrun || f == .barBroken || f == .dataCheck || (f == .coverOpen && s.inputs.coverClosed) ||
        (f == .paperOut && s.inputs.paperPresent) := funext s.inputs.pinitClears_eq
  have hdata : s.inputs.pinitClears .dataCheck = true := rfl
  rw [State.portReset, h, State.removeFaults, hdata, Bool.and_true, hclears, ht]
  rfl

section Reset
variable {s : State} {m : Motion}

theorem State.portReset_of_boundary (hm : s.motion = none) : s.portReset = s.portCleared := by
  rw [State.portReset_of_removed (State.removeComposites_of_boundary true hm) rfl]
  simp [State.emptied, State.portCleared, unblock]

theorem State.portReset_of_unstepped (hm : s.motion = some m) (h : m.steps = 0) : s.portReset = s.portCleared.dropMotion := by
  rw [State.portReset_of_removed (State.removeComposites_of_unstepped true hm h) rfl]
  simp [State.emptied, State.portCleared, State.dropMotion, unblock]

theorem State.portReset_of_feed (hm : s.motion = some m) (h : 1 ≤ m.steps) (hf : m.feed = true) :
    s.portReset = s.portCleared := by
  rw [State.portReset_of_removed (State.removeComposites_of_feed true hm h hf) rfl]
  simp [State.emptied, State.portCleared, unblock]

theorem State.portReset_of_line {c : Composite} {rest : List Composite} (hm : s.motion = some m) (h : 1 ≤ m.steps)
    (hf : m.feed = false) (hc : s.queue = c :: rest) :
    s.portReset =
      { s.portCleared with
        queue :=
          [{ c with seq := 127, flags := { c.flags with blocked := c.flags.blocked && !s.faults.contains .dataCheck } }]
        bufA := { s.bufA with holder := if s.bufA.holder = some c.seq then some 127 else none }
        bufB := { s.bufB with holder := if s.bufB.holder = some c.seq then some 127 else none } } := by
  rw [State.portReset_of_removed (State.removeComposites_of_line hm h hf hc) rfl]
  cases hd : s.faults.contains .dataCheck <;> simp [State.emptied, State.portCleared, unblock]

end Reset

/-! ## The edges of PINIT -/

section Edges
variable {s : State} {t0 : Nat}

/-- The moment from which PINIT is timed (R159, logs 9 and 18). -/
theorem State.pinitTimedFrom (h : s.pinitLowSince = some t0 ∨ (s.pinitLowSince = none ∧ t0 = s.clock)) :
    s.pinitLowSince.getD s.clock = t0 := by
  obtain h | ⟨h, rfl⟩ := h <;> rw [h] <;> rfl

theorem exec_pinitFall_of_quiet (hq : s.quiet = true) :
    exec .pinitFall s = .next { s with pinitLowSince := some (s.pinitLowSince.getD s.clock), pd := 0xFF } := by
  show execPinitFall s = _
  rw [execPinitFall, State.catchUp_of_quiet hq]

/-- The port of a station whose PINIT is low is closed (R154, R157). -/
theorem State.port_of_pinitLow (h : s.pinitLowSince ≠ none) : s.answers = false ∧ s.holdsPrdy = true := by
  have hlow : s.pinitLowSince.isNone = false := Option.isNone_eq_false_iff.2 (Option.isSome_iff_ne_none.2 h)
  exact ⟨by simp [State.answers, hlow], s.holdsPrdy_iff.2 (.inr (.inr (.inr (.inr (.inl h)))))⟩

/-- The rise of PINIT, timed from `t0`, before it acts (R159). -/
def State.pinitRisen (s : State) (t0 lowFor : Nat) : State :=
  { s with pinitLowSince := none, clock := max s.clock (t0 + lowFor) }

theorem exec_pinit_of_quiet (lowFor : Nat) (hq : s.quiet = true)
    (h : s.pinitLowSince = some t0 ∨ (s.pinitLowSince = none ∧ t0 = s.clock)) :
    exec (.pinit lowFor) s = .next
      (if 10 ≤ lowFor ∧ s.mode.working ∧ !s.rstLow then (s.pinitRisen t0 lowFor).portReset else s.pinitRisen t0 lowFor) := by
  show execPinit lowFor s = _
  rw [execPinit, State.catchUp_of_quiet hq, State.pinitTimedFrom h]
  rfl

end Edges

/-- Settles O36: the fall closes the port, and a rise that qualifies resets it by the moment in the motion. -/
theorem pinitClosesAndResetsThePort : Obligations.PinitClosesAndResetsThePort := by
  refine ⟨fun s t0 hq h => ?_, fun s t0 lowFor hq h => ?_⟩
  · obtain ⟨hanswers, hprdy⟩ := State.port_of_pinitLow (s := { s with pinitLowSince := some t0, pd := 0xFF }) nofun
    exact ⟨_, by rw [exec_pinitFall_of_quiet hq, State.pinitTimedFrom h], rfl, hanswers, hprdy⟩
  · intro u cleared
    have hrise := exec_pinit_of_quiet lowFor hq h
    refine ⟨fun hd => ?_, fun hlong hw hr => ?_⟩
    · have hnot : ¬(10 ≤ lowFor ∧ s.mode.working = true ∧ (!s.rstLow) = true) := by
        rintro ⟨hlong, hw, hr⟩
        obtain hd | hd | hd := hd
        · omega
        · exact absurd (hd.symm.trans hw) nofun
        · simp [hd] at hr
      rw [hrise, if_neg hnot]
      rfl
    · rw [hrise, if_pos ⟨hlong, hw, by simp [hr]⟩]
      refine ⟨fun hm => ?_, fun m hm h0 => ?_, fun m c rest hm h1 hf hc => ?_, fun m hm h1 hf => ?_⟩
      · rw [State.portReset_of_boundary (s := s.pinitRisen t0 lowFor) hm]
        rfl
      · rw [State.portReset_of_unstepped (s := s.pinitRisen t0 lowFor) hm h0]
        rfl
      · rw [State.portReset_of_line (s := s.pinitRisen t0 lowFor) hm h1 hf hc]
        rfl
      · rw [State.portReset_of_feed (s := s.pinitRisen t0 lowFor) hm h1 hf]
        rfl

end Sys2Proof.Machine
end

section
/-! The order bytes read and written back, and the values that R170 lists as unknown (R117, R158, R170). Settles O12. -/

namespace Sys2Proof.Machine

/-! ## An order writes back as the byte it was read from -/

/-- A row of a table answers nothing exactly where the value is not the row's and no later row answers. -/
theorem ite_some_eq_none_iff {α : Type} {p : Prop} [Decidable p] {a : α} {x : Option α} :
    (if p then some a else x) = none ↔ ¬p ∧ x = none := by
  by_cases hp : p
  · rw [if_pos hp]
    exact ⟨nofun, fun h => absurd hp h.1⟩
  · rw [if_neg hp]
    exact ⟨fun h => ⟨hp, h⟩, And.right⟩

/-- The values R170's table of record orders leaves out. -/
theorem decodeRecordOrder_eq_none_iff {v : Byte} :
    decodeRecordOrder v = none ↔
      ¬(0x10 ≤ v.toNat ∧ v.toNat ≤ 0x13) ∧ ¬(0x21 ≤ v.toNat ∧ v.toNat ≤ 0x2C) ∧ ¬(0x31 ≤ v.toNat ∧ v.toNat ≤ 0x33) ∧
        ¬(0x41 ≤ v.toNat ∧ v.toNat ≤ 0x4C) ∧ v.toNat ≠ 0x50 ∧ v.toNat ≠ 0x51 ∧ v.toNat ≠ 0x52 ∧ v.toNat ≠ 0x58 ∧
        v.toNat ≠ 0x59 := by
  simp only [decodeRecordOrder, ite_some_eq_none_iff, and_true, ne_eq]

/-- The values R170's table of control orders leaves out. -/
theorem decodeControlOrder_eq_none_iff {v : Byte} :
    decodeControlOrder v = none ↔ v.toNat ≠ 0x01 ∧ v.toNat ≠ 0x02 ∧ v.toNat ≠ 0x03 ∧ v.toNat ≠ 0x04 := by
  simp only [decodeControlOrder, ite_some_eq_none_iff, and_true, ne_eq]

/-- A byte is the value it is tabled under, base and carriage number (R170). -/
theorem ofNat_add_sub_toNat {v : Byte} {base : Nat} (h : base ≤ v.toNat) :
    BitVec.ofNat 8 (base + (v.toNat - base)) = v := by
  rw [Nat.add_sub_cancel' h, BitVec.ofNat_toNat, BitVec.setWidth_eq]

theorem encodeRecordOrder_of_decode {v : Byte} {o : RecordOrder} (h : decodeRecordOrder v = some o) :
    encodeRecordOrder o = v := by
  simp only [decodeRecordOrder] at h
  repeat' split at h
  all_goals cases h
  iterate 4 next => exact ofNat_add_sub_toNat (by omega)
  all_goals exact BitVec.eq_of_toNat_eq (Eq.symm ‹_›)

theorem encodeControlOrder_of_decode {v : Byte} {c : ControlOrder} (h : decodeControlOrder v = some c) :
    encodeControlOrder c = v := by
  simp only [decodeControlOrder] at h
  repeat' split at h
  all_goals cases h
  all_goals exact BitVec.eq_of_toNat_eq (Eq.symm ‹_›)

/-! ## Each value is a record order, a control order or unknown -/

/-- The order byte of a control order is no record order (R158, R170). -/
theorem decodeRecordOrder_of_control {v : Byte} {c : ControlOrder} (h : decodeControlOrder v = some c) :
    decodeRecordOrder v = none := by
  cases hd : decodeRecordOrder v with
  | none => rfl
  | some o => exact absurd ((decodeControlOrder_of_record hd).symm.trans h) nofun

/-- The values R170 lists as unknown are the gaps that its two tables leave (R117). -/
theorem unknownOrderValue_iff {v : Byte} :
    unknownOrderValue v = true ↔ decodeRecordOrder v = none ∧ decodeControlOrder v = none := by
  refine ⟨fun h => ⟨decodeRecordOrder_of_unknown h, decodeControlOrder_of_unknown h⟩, fun ⟨hr, hc⟩ => ?_⟩
  rw [decodeRecordOrder_eq_none_iff] at hr
  rw [decodeControlOrder_eq_none_iff] at hc
  simp only [unknownOrderValue, Bool.or_eq_true, Bool.and_eq_true, decide_eq_true_eq, beq_iff_eq]
  omega

/-- An order byte acts by its value, whatever row strobes it (R158; log 22). -/
theorem exec_unknownOrder_control (c : ControlOrder) (s : State) :
    exec (.unknownOrder (encodeControlOrder c)) s = .next (controlStrobe c s) :=
  congrArg Host.Outcome.next (strobeOrder_control c s)

/-- Settles O12: the record orders read back by `decodeRecordOrder_encode_of_wf`, each byte writes back, and the unknown values are
the gaps of the two tables. -/
theorem orderBytesReadAsTabled : Obligations.OrderBytesReadAsTabled := by
  refine ⟨fun k hk => decodeRecordOrder_encode_of_wf (i := .printSpace k) (decide_eq_true hk) rfl,
    fun c h1 hc => decodeRecordOrder_encode_of_wf (i := .printSkip c) (by simp [Instr.wf, h1, hc]) rfl,
    fun k h1 hk => decodeRecordOrder_encode_of_wf (i := .moveSpace k) (by simp [Instr.wf, h1, hk]) rfl,
    fun c h1 hc => decodeRecordOrder_encode_of_wf (i := .moveSkip c) (by simp [Instr.wf, h1, hc]) rfl,
    rfl, rfl, rfl, rfl, rfl, fun _ _ => encodeRecordOrder_of_decode,
    rfl, rfl, rfl, rfl, fun _ _ h => ⟨encodeControlOrder_of_decode h, decodeRecordOrder_of_control h⟩,
    fun _ => unknownOrderValue_iff, fun s => ?_⟩
  exact ⟨exec_unknownOrder_control .hold s, exec_unknownOrder_control .discard s, exec_unknownOrder_control .resume s,
    exec_unknownOrder_control .sense s⟩

end Sys2Proof.Machine
end

section
/-! The step of the queue: which command it runs, and that every command completes with the waiting ones as they were (logs 5, 17,
18, 22 and 23). Settles O1 and O2. -/

namespace Sys2Proof.Machine

/-! ## A step, by what waits -/

section Step
variable {s : State}

theorem step_of_front {c : Instr} {rest : List Instr} (h : s.pending = c :: rest) : step s = exec c { s with pending := rest } := by
  simp only [step, h]

theorem step_of_none_waiting (h : s.pending = []) : step s = .next s.tick := by
  simp only [step, h]

theorem State.statusReadOpen_of_read {b : Bool} (hr : s.senseRead = none) (hs : s.strobe = .read b) : s.statusReadOpen = true := by
  simp [State.statusReadOpen, hr, hs]

/-- A sense read has its own rows, and without a read strobe there is nothing to end (R160, R169). -/
theorem State.statusReadOpen_of_no_status_read (h : s.senseRead ≠ none ∨ ∀ b, s.strobe ≠ .read b) : s.statusReadOpen = false := by
  cases hs : s.strobe with
  | none => simp [State.statusReadOpen, hs]
  | write => simp [State.statusReadOpen, hs]
  | read b =>
    have hr : s.senseRead ≠ none := h.resolve_right fun hb => hb b hs
    simpa [State.statusReadOpen, hs, Option.ne_none_iff_isSome] using hr

theorem step_of_none_waiting_of_no_status_read (hp : s.pending = []) (h : s.senseRead ≠ none ∨ ∀ b, s.strobe ≠ .read b) :
    step s = .next s.catchUp := by
  rw [step_of_none_waiting hp, s.tick_of_not_open (State.statusReadOpen_of_no_status_read h)]

end Step

/-- Settles O1: the step by the queue, and with none waiting `tick` by the status read in progress. -/
theorem stepRunsTheFrontCommand : Obligations.StepRunsTheFrontCommand := by
  refine ⟨fun c rest s => step_of_front, fun s => step_of_none_waiting_of_no_status_read, fun s b hp hr hs => ?_,
    fun s hp hq h => ?_⟩
  · rw [step_of_none_waiting hp, s.tick_of_open (State.statusReadOpen_of_read hr hs)]
  · rw [step_of_none_waiting_of_no_status_read hp h, State.catchUp_of_quiet hq]

/-! ## The operations keep the waiting commands -/

theorem State.momentFrame.pending {s t : State} (h : s.momentFrame t) : t.pending = s.pending := by
  rw [h]

@[simp] theorem State.ite_pending {c : Prop} [Decidable c] (s t : State) :
    (if c then s else t).pending = if c then s.pending else t.pending := apply_ite State.pending c s t

section Operations
variable (s : State)

@[simp] theorem State.departOldest_pending : s.departOldest.pending = s.pending := by
  obtain ⟨-, h⟩ | ⟨c, rest, -, h⟩ := s.departOldest_cases <;> rw [h]

@[simp] theorem State.freeOldestBuffer_pending : s.freeOldestBuffer.pending = s.pending := by
  obtain ⟨-, h⟩ | ⟨c, rest, -, h⟩ := s.freeOldestBuffer_cases <;> rw [h]

@[simp] theorem State.withdraw_pending : s.withdraw.pending = s.pending := by
  unfold State.withdraw
  split <;> rfl

@[simp] theorem State.applyStops_pending : s.applyStops.pending = s.pending := by simp [State.applyStops_eq]

@[simp] theorem State.addStop_pending (t : Stop) : (s.addStop t).pending = s.pending := by
  obtain ⟨-, h⟩ | ⟨m, -, -, h⟩ | ⟨m, -, -, h⟩ := s.addStop_cases t <;> simp [h]

@[simp] theorem State.applyPlan_pending : s.applyPlan.pending = s.pending := by
  unfold State.applyPlan
  split <;> rfl

@[simp] theorem State.conclude_pending : s.conclude.pending = s.pending := by
  obtain hm | ⟨m, hm⟩ := Option.eq_none_or_eq_some s.motion
  · rw [State.conclude, hm]
  · simp [State.conclude_of_motion hm]

@[simp] theorem State.abandonMotion_pending : s.abandonMotion.pending = s.pending := by
  obtain hm | ⟨m, hm⟩ := Option.eq_none_or_eq_some s.motion
  · rw [State.abandonMotion_of_boundary hm]
  · simp [State.abandonMotion_of_motion hm]

@[simp] theorem State.removeComposites_pending (fires : Bool) : (s.removeComposites fires).pending = s.pending := by
  obtain ⟨-, h⟩ | ⟨m, -, -, h⟩ | ⟨m, -, -, -, h⟩ | ⟨m, c, rest, -, -, -, -, h⟩ := s.removeComposites_cases fires <;> simp [h]

@[simp] theorem State.breakBar_pending : s.breakBar.pending = s.pending := by simp [State.breakBar_eq, State.barDropped]

@[simp] theorem State.portReset_pending : s.portReset.pending = s.pending := by simp [State.portReset]

@[simp] theorem State.readSensors_pending : s.readSensors.pending = s.pending := by simp [State.readSensors]

@[simp] theorem State.stopKey_pending : s.stopKey.pending = s.pending := by
  unfold State.stopKey
  split
  · simp
  · rfl
  · unfold State.stopFeed
    split <;> simp
  · rfl
  · rfl

@[simp] theorem State.startKey_pending : s.startKey.pending = s.pending := rfl

@[simp] theorem State.receive_pending (b : PortByte) : (s.receive b).pending = s.pending := by
  simp [State.receive, (State.parse_parserFrame _).moment.pending]

@[simp] theorem State.strobeRecord_pending (b : PortByte) : (s.strobeRecord b).pending = s.pending := by
  simp [State.strobeRecord]

/-! ## The control orders -/

theorem State.holdOrder_pending : s.holdOrder.pending = s.pending := by simp [State.holdOrder]

theorem State.discardOrder_pending : s.discardOrder.pending = s.pending := by
  unfold State.discardOrder
  dsimp only
  split <;> simp

end Operations

/-- A control order keeps the waiting commands where both its effects do. -/
theorem strobeControl_pending {forming acts : State → State} (hf : ∀ s, (forming s).pending = s.pending)
    (ha : ∀ s, (acts s).pending = s.pending) (s : State) : (strobeControl forming acts s).pending = s.pending := by
  simp [strobeControl, hf, ha]

theorem controlStrobe_pending (c : ControlOrder) (s : State) : (controlStrobe c s).pending = s.pending := by
  cases c with
  | hold => exact strobeControl_pending (fun _ => rfl) State.holdOrder_pending s
  | discard => exact strobeControl_pending (fun t => t.removeFaults_pending _) State.discardOrder_pending s
  | resume => exact strobeControl_pending (acts := State.resumeOrder) (fun _ => rfl) (fun _ => rfl) s
  | sense => exact strobeControl_pending State.senseOrder_pending State.senseOrder_pending s

theorem strobeOrder_pending (v : Byte) (s : State) : (strobeOrder v s).pending = s.pending := by
  unfold strobeOrder
  split
  · exact controlStrobe_pending _ s
  · simp

/-! ## The commands -/

/-- The outcome is a next state, with the commands of `s` waiting. -/
def State.goesOn (s : State) (o : Host.Outcome State Fault Refusal) : Prop := ∃ t, o = .next t ∧ t.pending = s.pending

section Commands
variable {s : State}

theorem State.goesOn.next {t : State} (h : t.pending = s.pending) : s.goesOn (.next t) := ⟨t, rfl, h⟩

theorem State.goesOn.ite {c : Prop} [Decidable c] {o o' : Host.Outcome State Fault Refusal} (h : s.goesOn o) (g : s.goesOn o') :
    s.goesOn (if c then o else o') := by
  split
  · exact h
  · exact g

/-- What an event does, it does after the steps due, which keep the waiting commands (log 5). -/
theorem State.goesOn.ofCatchUp {o : Host.Outcome State Fault Refusal} (h : s.catchUp.goesOn o) : s.goesOn o := by
  obtain ⟨t, ho, ht⟩ := h
  exact ⟨t, ho, ht.trans s.catchUp_pending⟩

/-! Each of the rows below finds what it acts on, or leaves the state as it is (logs 17 and 18). -/

theorem execArbitrationRead_goesOn (p : Peers) : s.goesOn (execArbitrationRead p s) := by
  refine .ofCatchUp ?_
  dsimp only [execArbitrationRead]
  split
  · exact .ite (.next rfl) (.next rfl)
  · exact .next rfl

theorem execSenseRecordRead_goesOn : s.goesOn (execSenseRecordRead s) := by
  refine .ofCatchUp ?_
  dsimp only [execSenseRecordRead]
  split
  · exact .ite (.next (by simp)) (.next rfl)
  · exact .next rfl

theorem execStartIntervalExpiry_goesOn : s.goesOn (execStartIntervalExpiry s) := by
  refine .ofCatchUp ?_
  dsimp only [execStartIntervalExpiry]
  split <;> exact .next rfl

theorem execFormingIntervalExpiry_goesOn : s.goesOn (execFormingIntervalExpiry s) := by
  refine .ofCatchUp ?_
  dsimp only [execFormingIntervalExpiry]
  split
  · exact .next (State.readSensors_pending _)
  · exact .next rfl

theorem execStep_goesOn : s.goesOn (execStep s) := by
  refine .ofCatchUp (.ite (.next rfl) ?_)
  split
  · exact .ite (.next rfl) (.next rfl)
  · exact .next rfl

theorem execStepPulseEnd_goesOn : s.goesOn (execStepPulseEnd s) := by
  refine .ofCatchUp ?_
  dsimp only [execStepPulseEnd]
  split <;> exact .next rfl

theorem execFirePulseStart_goesOn : s.goesOn (execFirePulseStart s) := by
  refine .ofCatchUp ?_
  dsimp only [execFirePulseStart]
  split
  · split
    · exact .ite (.next rfl) (.next rfl)
    · exact .next rfl
  · exact .next rfl

theorem execFirePulseEnd_goesOn : s.goesOn (execFirePulseEnd s) := by
  refine .ofCatchUp ?_
  dsimp only [execFirePulseEnd]
  split
  · split
    · exact .next (by simp)
    · exact .next rfl
  · exact .next rfl

theorem execFrameHoldDelay_goesOn : s.goesOn (execFrameHoldDelay s) := by
  refine .ofCatchUp ?_
  dsimp only [execFrameHoldDelay]
  split <;> exact .next rfl

theorem execFrameTimerExpiry_goesOn : s.goesOn (execFrameTimerExpiry s) := by
  refine .ofCatchUp ?_
  dsimp only [execFrameTimerExpiry]
  split
  · split <;> exact .next rfl
  · exact .next rfl

theorem execRenderCompletion_goesOn : s.goesOn (execRenderCompletion s) := by
  refine .ofCatchUp ?_
  dsimp only [execRenderCompletion]
  split <;> exact .next rfl

/-- Every command of the table goes on, whatever the state (logs 17, 18, 22 and 23). -/
theorem exec_goesOn (c : Instr) : s.goesOn (exec c s) := by
  cases c with
  | printSpace | printSkip | moveSpace | moveSkip | loadForm | loadCodes | loadGlyph | checkBlank | checkBlock
  | unknownOrder | hold | discard | resume | sense => exact .next (strobeOrder_pending _ s)
  | dataByte => exact .ofCatchUp (.next (State.strobeRecord_pending _ _))
  | pstrFall dir => cases dir <;> exact .ofCatchUp (.next rfl)
  | arbitrationRead p => exact execArbitrationRead_goesOn p
  | senseRecordRead => exact execSenseRecordRead_goesOn
  | pinitFall | fullReset => exact .ofCatchUp (.next rfl)
  | pinit => exact .ofCatchUp (.next (by simp))
  | startIntervalExpiry => exact execStartIntervalExpiry_goesOn
  | formingIntervalExpiry => exact execFormingIntervalExpiry_goesOn
  | resetRelease | joinRise | coverClosed | paperPresent => exact .ofCatchUp (.ite (.next rfl) (.next rfl))
  | joinFall => exact .ofCatchUp (.ite (.next rfl) (.ite (.next (State.breakBar_pending _)) (.ite (.next rfl) (.next rfl))))
  | coverOpen | paperAbsent | kstart | kfeed => exact .ofCatchUp (.ite (.next rfl) (.next (by simp)))
  | kstop => exact .ofCatchUp (.ite (.next rfl) (.next (State.stopKey_pending _)))
  | ktof => exact .ofCatchUp (.ite (.next rfl) (.ite (.next (by simp)) (.next rfl)))
  | faultFall | stepRelease => exact .ofCatchUp (.next (by simp))
  | faultRise => exact .ofCatchUp (.ite (.next (by simp)) (.next rfl))
  | step => exact execStep_goesOn
  | frameEvent => exact .ofCatchUp (.ite (.next (State.conclude_pending _)) (.next rfl))
  | stepPulseEnd => exact execStepPulseEnd_goesOn
  | firePulseStart => exact execFirePulseStart_goesOn
  | firePulseEnd => exact execFirePulseEnd_goesOn
  | frameHoldDelay => exact execFrameHoldDelay_goesOn
  | frameTimerExpiry => exact execFrameTimerExpiry_goesOn
  | renderCompletion => exact execRenderCompletion_goesOn
  | motionStart => exact .next s.startMotion_momentFrame.pending
  | renderStart => exact .next s.startRender_momentFrame.pending
  | placeGrant => exact .next s.grantPlace_momentFrame.pending
  | drainEnd => exact .next s.endDrain_momentFrame.pending

end Commands

/-- Settles O2: every command goes on. -/
theorem everyCommandCompletes : Obligations.EveryCommandCompletes := fun c _ => exec_goesOn c

end Sys2Proof.Machine
end

section
/-! The line queue of a sound station (R1 to R5, R15, R17, R67, R68): the facts that `State.sound` states of it, and what each of
the queue's operations keeps of them. -/

namespace Sys2Proof.Machine

/-! ## Sequence numbers -/

/-- Consecutive numbers count on from the first (R5). -/
theorem runsFrom_eq_some_iff (l : List Composite) (x n : BitVec 7) :
    runsFrom x l = some n ↔
      (∀ i (h : i < l.length), l[i].seq = x + BitVec.ofNat 7 i) ∧ n = x + BitVec.ofNat 7 l.length := by
  induction l generalizing x with
  | nil => simp [runsFrom, eq_comm]
  | cons c rest ih =>
    have hnext (i : Nat) : x + 1 + BitVec.ofNat 7 i = x + BitVec.ofNat 7 (i + 1) := by
      rw [BitVec.add_assoc, BitVec.ofNat_add, BitVec.add_comm (BitVec.ofNat 7 i)]
      rfl
    unfold runsFrom
    split
    next hc =>
      rw [ih]
      simp only [hnext, List.length_cons]
      refine and_congr_left fun _ => ⟨fun h i hi => ?_, fun h i hi => h (i + 1) (Nat.succ_lt_succ hi)⟩
      cases i with
      | zero => simpa using hc
      | succ i => exact h i (Nat.lt_of_succ_lt_succ hi)
    next hc =>
      refine iff_of_false nofun fun h => hc ?_
      simpa using h.1 0 (Nat.succ_pos _)

/-- Only the sequences bear on it. -/
theorem runsFrom_congr {l l' : List Composite} (h : l'.map Composite.seq = l.map Composite.seq) (x : BitVec 7) :
    runsFrom x l' = runsFrom x l := by
  induction l generalizing x l' with
  | nil => rw [List.map_eq_nil_iff.1 h]
  | cons c rest ih =>
    cases l' with
    | nil => cases h
    | cons c' rest' =>
      obtain ⟨hc, hrest⟩ := List.cons.inj h
      rw [runsFrom, runsFrom, show c'.seq = c.seq from hc, ih hrest]

/-- Fewer than 128 consecutive numbers differ from one another and from the counter (R5). -/
theorem seqs_nodup_of_runsFrom {l : List Composite} {x n : BitVec 7} (h : runsFrom x l = some n) (hl : l.length < 128) :
    (l.map Composite.seq ++ [n]).Nodup := by
  obtain ⟨hseq, hn⟩ := (runsFrom_eq_some_iff l x n).1 h
  have hget (i : Nat) (hi : i < (l.map Composite.seq ++ [n]).length) :
      (l.map Composite.seq ++ [n])[i] = x + BitVec.ofNat 7 i := by
    rw [List.getElem_append]
    split
    next hlt => simpa using hseq i (by simpa using hlt)
    next hge =>
      have : i = l.length := by simp at hi hge; omega
      simp [this, hn]
  rw [List.nodup_iff_getElem?_ne_getElem?]
  intro i j hij hj
  rw [List.getElem?_eq_getElem hj, List.getElem?_eq_getElem (hij.trans hj), hget, hget]
  simp only [List.length_append, List.length_map, List.length_singleton] at hj
  intro heq
  have := congrArg BitVec.toNat (BitVec.add_right_inj x |>.1 (Option.some.inj heq))
  simp only [BitVec.toNat_ofNat] at this
  omega

/-! ## The facts of a queue -/

theorem allButLast_iff {α : Type} (p : α → Bool) (l : List α) :
    allButLast p l = true ↔ ∀ x ∈ l.dropLast, p x = true := by
  induction l with
  | nil => simp [allButLast]
  | cons x rest ih =>
    cases rest with
    | nil => simp [allButLast]
    | cons y rest => simp [allButLast, ih]

/-- The composites in rendering (R68). -/
def inRender (q : List Composite) : List Composite := q.filter fun c => c.state == .rendering

/-- The render record describes the one composite in rendering, and there is none without it (R68). -/
def RenderFacts (q : List Composite) : Option RenderRecord → Prop
  | none => inRender q = []
  | some r => ∃ c, inRender q = [c] ∧ c.seq = r.seq ∧ c.buffer = some r.buffer ∧
      r.duration = Config.renderPerLayer * c.layers.length

/-- The composite that holds a buffer, with the holders of A and B given (R67). -/
def heldBy (ha hb : Option (BitVec 7)) : Buf → Option (BitVec 7)
  | .a => ha
  | .b => hb

/-- What `State.sound` states of one composite (R1, R2, R15, R67). -/
structure Composite.Sits (w : Nat) (c : Composite) : Prop where
  few : c.layers.length ≤ 4
  wide : ∀ l ∈ c.layers, l.length = w
  inRange : ∀ a, c.action = some a → a.fits = true
  acted : c.action = none ↔ c.state = .opened
  bare : c.layers = [] → c.state ≠ .closed ∧ c.state ≠ .rendering ∧ c.buffer = none
  unbuffered : c.state = .opened ∨ c.state = .closed → c.buffer = none
  buffered : c.state = .rendering ∨ c.state = .ready → c.layers ≠ [] → c.buffer ≠ none

theorem Composite.sits_iff (w : Nat) (c : Composite) : c.Sits w ↔ c.fits w = true ∧ c.bufferFits = true := by
  have hrange : c.actionFits = true ↔ ∀ a, c.action = some a → a.fits = true := by
    unfold Composite.actionFits
    cases c.action <;> simp
  have hacted : (c.action.isNone == (c.state == .opened)) = true ↔ (c.action = none ↔ c.state = .opened) := by
    rw [beq_iff_eq, Bool.eq_iff_iff, Option.isNone_iff_eq_none, beq_iff_eq]
  simp only [Composite.fits, Bool.and_eq_true, hrange, hacted, decide_eq_true_eq, List.all_eq_true, beq_iff_eq]
  constructor
  · intro h
    refine ⟨⟨⟨⟨⟨h.few, h.wide⟩, h.inRange⟩, h.acted⟩, ?_⟩, ?_⟩
    · cases hl : c.layers with
      | nil => simpa [and_assoc] using h.bare hl
      | cons => rfl
    · unfold Composite.bufferFits
      cases hs : c.state with
      | opened | closed => simp [h.unbuffered, hs]
      | rendering => simpa [Option.isSome_iff_ne_none] using h.buffered (.inl hs) fun hl => (h.bare hl).2.1 hs
      | ready =>
        cases hl : c.layers with
        | nil => simp [(h.bare hl).2.2]
        | cons => simpa [Option.isSome_iff_ne_none] using h.buffered (.inr hs) (by simp [hl])
      | printing => rfl
  · rintro ⟨⟨⟨⟨⟨hf, hw⟩, hr⟩, ha⟩, hb⟩, hbuf⟩
    unfold Composite.bufferFits at hbuf
    refine ⟨hf, hw, hr, ha, fun hl => by simpa [hl, and_assoc] using hb, ?_, ?_⟩
    · rintro (hs | hs) <;> simpa [hs] using hbuf
    · intro hs hl
      have hfull : c.layers.isEmpty = false := List.isEmpty_eq_false_iff.2 hl
      rcases hs with hs | hs <;> rw [hs] at hbuf <;> simpa [hfull, ← Option.isSome_iff_ne_none] using hbuf

/-- What `State.sound` states of the queue, the counter, the holders of the two buffers and the render record. -/
structure QueueFacts (w : Nat) (q : List Composite) (n : BitVec 7) (ha hb : Option (BitVec 7)) (r : Option RenderRecord) :
    Prop where
  short : q.length ≤ 4
  newest : ∀ c ∈ q.dropLast, c.state ≠ .opened
  oldest : ∀ c ∈ q.tail, c.state ≠ .printing
  numbered : ∃ x, runsFrom x q = some n
  sits : ∀ c ∈ q, c.Sits w
  named : ∀ c ∈ q, ∀ buf, c.buffer = some buf ↔ heldBy ha hb buf = some c.seq
  held : ∀ buf x, heldBy ha hb buf = some x → ∃ c ∈ q, c.seq = x
  render : RenderFacts q r

theorem State.queueShape_iff (s : State) :
    s.queueShape = true ↔
      s.queue.length ≤ 4 ∧ (∀ c ∈ s.queue.dropLast, c.state ≠ .opened) ∧ ∀ c ∈ s.queue.tail, c.state ≠ .printing := by
  simp [State.queueShape, allButLast_iff, and_assoc]

theorem State.sequencesRun_iff (s : State) : s.sequencesRun = true ↔ ∃ x, runsFrom x s.queue = some s.counter := by
  unfold State.sequencesRun
  split
  next h => simp [h, runsFrom]
  next c rest h =>
    rw [beq_iff_eq, h]
    refine ⟨fun e => ⟨_, e⟩, fun ⟨x, e⟩ => ?_⟩
    have hx : c.seq = x := by
      by_contra hne
      simp [runsFrom, hne] at e
    rwa [hx]

theorem State.bufferNamed_iff (s : State) (buf : Buf) :
    s.bufferNamed buf = true ↔
      (∀ c ∈ s.queue, c.buffer = some buf ↔ heldBy s.bufA.holder s.bufB.holder buf = some c.seq) ∧
        ∀ x, heldBy s.bufA.holder s.bufB.holder buf = some x → ∃ c ∈ s.queue, c.seq = x := by
  have hh : (if buf = .a then s.bufA.holder else s.bufB.holder) = heldBy s.bufA.holder s.bufB.holder buf := by
    cases buf <;> rfl
  have hc (h : Option (BitVec 7)) (c : Composite) :
      ((c.buffer == some buf) == (h == some c.seq)) = true ↔ (c.buffer = some buf ↔ h = some c.seq) := by
    rw [beq_iff_eq, Bool.eq_iff_iff, beq_iff_eq, beq_iff_eq]
  unfold State.bufferNamed
  rw [hh, Bool.and_eq_true, List.all_eq_true]
  simp only [hc]
  cases heldBy s.bufA.holder s.bufB.holder buf <;> simp

theorem State.renderFits_iff (s : State) : s.renderFits = true ↔ RenderFacts s.queue s.render := by
  unfold State.renderFits RenderFacts inRender
  cases s.render with
  | none => simp
  | some r =>
    simp only
    split
    next c h => simp [h, and_assoc]
    next h =>
      refine iff_of_false nofun fun ⟨c, hc, _⟩ => h c hc

/-- The facts of the queue are the clauses of `State.sound` on it. -/
theorem State.queueFacts_iff (s : State) :
    QueueFacts s.straps.effective s.queue s.counter s.bufA.holder s.bufB.holder s.render ↔
      s.queueShape = true ∧ s.sequencesRun = true ∧ s.compositesFit = true ∧ s.buffersFit = true ∧ s.renderFits = true := by
  rw [s.queueShape_iff, s.sequencesRun_iff, s.renderFits_iff, State.compositesFit, State.buffersFit]
  simp only [Bool.and_eq_true, s.bufferNamed_iff, List.all_eq_true]
  constructor
  · intro h
    exact ⟨⟨h.short, h.newest, h.oldest⟩, h.numbered, fun c hc => ((c.sits_iff _).1 (h.sits c hc)).1,
      ⟨⟨⟨fun c hc => h.named c hc _, h.held _⟩, fun c hc => h.named c hc _, h.held _⟩, fun c hc => ((c.sits_iff _).1 (h.sits c hc)).2⟩, h.render⟩
  · rintro ⟨⟨hs, hn, ho⟩, hr, hf, ⟨⟨⟨hna, hha⟩, hnb, hhb⟩, hb⟩, hrd⟩
    refine ⟨hs, hn, ho, hr, fun c hc => (c.sits_iff _).2 ⟨hf c hc, hb c hc⟩, fun c hc buf => ?_, fun buf => ?_, hrd⟩
    · cases buf
      · exact hna c hc
      · exact hnb c hc
    · cases buf
      · exact hha
      · exact hhb

/-! ## The queue's operations keep its facts -/

/-- Everything `updateFirst` can do: nothing without a match, or the first match is replaced. -/
theorem updateFirst_cases {α : Type} (p : α → Bool) (f : α → α) (l : List α) :
    ((∀ y ∈ l, p y = false) ∧ updateFirst p f l = l) ∨
      ∃ pre x post, l = pre ++ x :: post ∧ (∀ y ∈ pre, p y = false) ∧ p x = true ∧
        updateFirst p f l = pre ++ f x :: post := by
  by_cases h : ∃ y ∈ l, p y = true
  · obtain ⟨y, hy, hp⟩ := h
    obtain ⟨x, pre, post, hpre, hx, rfl, -⟩ := List.exists_of_eraseP hy hp
    have hpre' : ∀ y ∈ pre, p y = false := fun y hy => by simpa using hpre y hy
    exact .inr ⟨pre, x, post, rfl, hpre', hx, updateFirst_append hpre' hx⟩
  · have hnone : ∀ y ∈ l, p y = false := by simpa using h
    exact .inl ⟨hnone, updateFirst_of_none hnone⟩

section Operations
variable {w : Nat} {q pre post : List Composite} {n : BitVec 7} {ha hb ha' hb' : Option (BitVec 7)}
  {r r' : Option RenderRecord} {c x x' : Composite}

/-- No two composites bear one sequence, and none bears the counter's (R5). -/
theorem QueueFacts.nodup (h : QueueFacts w q n ha hb r) : (q.map Composite.seq ++ [n]).Nodup := by
  obtain ⟨x, hx⟩ := h.numbered
  exact seqs_nodup_of_runsFrom hx (by have := h.short; omega)

theorem QueueFacts.seq_ne_counter (h : QueueFacts w q n ha hb r) (hc : c ∈ q) : c.seq ≠ n := by
  have := (List.nodup_append.1 h.nodup).2.2 c.seq (List.mem_map_of_mem hc) n (by simp)
  exact this

theorem QueueFacts.seq_ne_of_split (h : QueueFacts w (pre ++ x :: post) n ha hb r) (hc : c ∈ pre ∨ c ∈ post) :
    c.seq ≠ x.seq := by
  have hnd := (List.nodup_append.1 h.nodup).1
  rw [List.map_append, List.map_cons, List.nodup_append, List.nodup_cons] at hnd
  obtain ⟨-, ⟨hpost, -⟩, hpre⟩ := hnd
  rcases hc with hc | hc
  · exact hpre c.seq (List.mem_map_of_mem hc) x.seq List.mem_cons_self
  · exact fun e => hpost (e ▸ List.mem_map_of_mem hc)

/-- An empty queue with both buffers free and no render has the facts, whatever the counter (R23, R81). -/
theorem QueueFacts.empty (w : Nat) (n : BitVec 7) : QueueFacts w [] n none none none where
  short := Nat.zero_le _
  newest := nofun
  oldest := nofun
  numbered := ⟨n, rfl⟩
  sits := nofun
  named := nofun
  held := fun buf _ h => by cases buf <;> cases h
  render := rfl

/-- One composite is replaced by one of the same sequence; the others keep their buffers. -/
theorem QueueFacts.replace (h : QueueFacts w (pre ++ x :: post) n ha hb r) (hseq : x'.seq = x.seq) (hsits : x'.Sits w)
    (hopen : x'.state = .opened → x.state = .opened) (hprint : x'.state = .printing → pre = [])
    (hnamed : ∀ buf, x'.buffer = some buf ↔ heldBy ha' hb' buf = some x.seq)
    (hother : ∀ buf y, y ≠ x.seq → (heldBy ha' hb' buf = some y ↔ heldBy ha hb buf = some y))
    (hr : RenderFacts (pre ++ x' :: post) r') : QueueFacts w (pre ++ x' :: post) n ha' hb' r' where
  short := by simpa using h.short
  newest := by
    have hold := h.newest
    cases post with
    | nil => simpa using hold
    | cons y ys =>
      simp only [List.dropLast_append_cons, List.dropLast_cons_cons, List.mem_append, List.mem_cons, or_imp, forall_and,
        forall_eq] at hold ⊢
      exact ⟨hold.1, fun hs => hold.2.1 (hopen hs), hold.2.2⟩
  oldest := by
    have hold := h.oldest
    cases pre with
    | nil => exact hold
    | cons y ys =>
      simp only [List.cons_append, List.tail_cons, List.mem_append, List.mem_cons, or_imp, forall_and, forall_eq] at hold ⊢
      exact ⟨hold.1, fun hs => absurd (hprint hs) nofun, hold.2.2⟩
  numbered := by
    obtain ⟨y, hy⟩ := h.numbered
    exact ⟨y, (runsFrom_congr (by simp [hseq]) y).trans hy⟩
  sits := by
    have hold := h.sits
    simp only [List.mem_append, List.mem_cons, or_imp, forall_and, forall_eq] at hold ⊢
    exact ⟨hold.1, hsits, hold.2.2⟩
  named := by
    intro c hc buf
    have hkeep (hm : c ∈ pre ∨ c ∈ post) : c.buffer = some buf ↔ heldBy ha' hb' buf = some c.seq := by
      rw [hother buf c.seq (h.seq_ne_of_split hm)]
      exact h.named c (by simp; tauto) buf
    rcases List.mem_append.1 hc with hc | hc
    · exact hkeep (.inl hc)
    · rcases List.mem_cons.1 hc with rfl | hc
      · rw [hseq]
        exact hnamed buf
      · exact hkeep (.inr hc)
  held := by
    intro buf y hy
    by_cases he : y = x.seq
    · exact ⟨x', by simp, hseq.trans he.symm⟩
    · obtain ⟨c, hc, rfl⟩ := h.held buf y ((hother buf y he).1 hy)
      have hne : c ≠ x := fun e => he (e ▸ rfl)
      have hm : c ∈ pre ∨ c ∈ post := by simpa [hne] using hc
      exact ⟨c, by simp; tauto, rfl⟩
  render := hr

/-- Composites that are not in rendering may be replaced by others that are not. -/
theorem RenderFacts.replace (h : RenderFacts (pre ++ x :: post) r) (hx : x.state ≠ .rendering) (hx' : x'.state ≠ .rendering) :
    RenderFacts (pre ++ x' :: post) r := by
  have he : inRender (pre ++ x' :: post) = inRender (pre ++ x :: post) := by simp [inRender, hx, hx']
  unfold RenderFacts at h ⊢
  rwa [he]

/-- One composite is replaced, outside of rendering, with its sequence and its buffer. -/
theorem QueueFacts.replace_still (h : QueueFacts w (pre ++ x :: post) n ha hb r) (hseq : x'.seq = x.seq)
    (hbuf : x'.buffer = x.buffer) (hsits : x'.Sits w) (hopen : x'.state = .opened → x.state = .opened)
    (hprint : x'.state = .printing → pre = []) (hx : x.state ≠ .rendering) (hx' : x'.state ≠ .rendering) :
    QueueFacts w (pre ++ x' :: post) n ha hb r :=
  h.replace hseq hsits hopen hprint (fun buf => by rw [hbuf]; exact h.named x (by simp) buf) (fun _ _ _ => .rfl)
    (h.render.replace hx hx')

/-- The OPEN composite changes within OPEN, or closes (R15). -/
theorem QueueFacts.onOpen (h : QueueFacts w q n ha hb r) {f : Composite → Composite}
    (hseq : ∀ c, (f c).seq = c.seq) (hbuf : ∀ c, (f c).buffer = c.buffer)
    (hstate : ∀ c, c.state = .opened → (f c).state ≠ .printing ∧ (f c).state ≠ .rendering)
    (hsits : ∀ c, c.state = .opened → c.Sits w → (f c).Sits w) :
    QueueFacts w (updateFirst (fun c => c.state == .opened) f q) n ha hb r := by
  obtain ⟨-, e⟩ | ⟨pre, x, post, rfl, -, hx, e⟩ := updateFirst_cases (fun c : Composite => c.state == .opened) f q <;> rw [e]
  · exact h
  · have hopen : x.state = .opened := by simpa using hx
    obtain ⟨hp, hr⟩ := hstate x hopen
    exact h.replace_still (hseq x) (hbuf x) (hsits x hopen (h.sits x (by simp))) (fun _ => hopen) (fun e => absurd e hp)
      (by simp [hopen]) hr

/-- A composite is created at the end of a queue with a place and no OPEN composite (R4, R5, R7). -/
theorem QueueFacts.create (h : QueueFacts w q n ha hb r) (hlen : q.length < 4) (hopen : ∀ c ∈ q, c.state ≠ .opened) :
    QueueFacts w (q ++ [{ seq := n }]) (n + 1) ha hb r where
  short := by simp; omega
  newest := by simpa using hopen
  oldest := by
    have hold := h.oldest
    cases q with
    | nil => simp
    | cons y ys =>
      simp only [List.cons_append, List.tail_cons, List.mem_append, List.mem_singleton, or_imp, forall_and, forall_eq]
        at hold ⊢
      exact ⟨hold, nofun⟩
  numbered := by
    obtain ⟨y, hy⟩ := h.numbered
    obtain ⟨hseq, hn⟩ := (runsFrom_eq_some_iff q y n).1 hy
    refine ⟨y, (runsFrom_eq_some_iff _ y _).2 ⟨fun i hi => ?_, ?_⟩⟩
    · rw [List.getElem_append]
      split
      next hlt => exact hseq i hlt
      next hge =>
        have : i = q.length := by simp at hi hge; omega
        simp [this, hn]
    · rw [hn, List.length_append, List.length_singleton, BitVec.ofNat_add, BitVec.add_assoc]
      rfl
  sits := by
    have hold := h.sits
    simp only [List.mem_append, List.mem_singleton, or_imp, forall_and, forall_eq]
    refine ⟨hold, ?_⟩
    constructor <;> simp
  named := by
    intro c hc buf
    rcases List.mem_append.1 hc with hc | hc
    · exact h.named c hc buf
    · rw [List.mem_singleton.1 hc]
      refine iff_of_false nofun fun he => ?_
      obtain ⟨c, hc, hs⟩ := h.held buf n he
      exact h.seq_ne_counter hc hs
  held := fun buf y hy => by
    obtain ⟨c, hc, hs⟩ := h.held buf y hy
    exact ⟨c, List.mem_append_left _ hc, hs⟩
  render := by
    have hold := h.render
    have he : inRender (q ++ [{ seq := n }]) = inRender q := by simp [inRender]
    unfold RenderFacts at hold ⊢
    rwa [he]

/-- Clearing BLOCKED changes nothing that the facts speak of (R3). -/
theorem QueueFacts.unblock (h : QueueFacts w q n ha hb r) : QueueFacts w (unblock q) n ha hb r where
  short := by simpa using h.short
  newest := by
    rw [Machine.unblock, ← List.map_dropLast]
    exact List.forall_mem_map.2 h.newest
  oldest := by
    rw [Machine.unblock, ← List.map_tail]
    exact List.forall_mem_map.2 h.oldest
  numbered := by
    obtain ⟨y, hy⟩ := h.numbered
    exact ⟨y, (runsFrom_congr (by simp [Machine.unblock]) y).trans hy⟩
  sits := List.forall_mem_map.2 fun c hc => { h.sits c hc with }
  named := List.forall_mem_map.2 h.named
  held := fun buf y hy => by
    obtain ⟨c, hc, hs⟩ := h.held buf y hy
    exact ⟨_, List.mem_map_of_mem hc, hs⟩
  render := by
    have hold := h.render
    have he : inRender (Machine.unblock q) = Machine.unblock (inRender q) := by
      rw [inRender, Machine.unblock, List.filter_map]
      rfl
    unfold RenderFacts at hold ⊢
    rw [he]
    cases r with
    | none => rw [hold]; rfl
    | some r =>
      obtain ⟨c, hc, hfacts⟩ := hold
      exact ⟨{ c with flags := { c.flags with blocked := false } }, by rw [hc]; rfl, hfacts⟩

theorem heldBy_freed (ha hb : Option (BitVec 7)) (y : BitVec 7) (buf : Buf) :
    heldBy (if ha = some y then none else ha) (if hb = some y then none else hb) buf =
      if heldBy ha hb buf = some y then none else heldBy ha hb buf := by
  cases buf <;> rfl

/-- The oldest composite leaves a queue, not in rendering, and frees the buffer that it holds (R18, R76). -/
theorem QueueFacts.depart (h : QueueFacts w (x :: q) n ha hb r) (hx : x.state ≠ .rendering) :
    QueueFacts w q n (if ha = some x.seq then none else ha) (if hb = some x.seq then none else hb) r where
  short := Nat.le_of_succ_le h.short
  newest := by
    have hold := h.newest
    cases q with
    | nil => nofun
    | cons y ys => exact fun c hc => hold c (List.mem_cons_of_mem x hc)
  oldest := fun c hc => h.oldest c (List.mem_of_mem_tail hc)
  numbered := by
    obtain ⟨y, hy⟩ := h.numbered
    unfold runsFrom at hy
    split at hy
    · exact ⟨_, hy⟩
    · cases hy
  sits := fun c hc => h.sits c (List.mem_cons_of_mem x hc)
  named := fun c hc buf => by
    have hne : c.seq ≠ x.seq := h.seq_ne_of_split (pre := []) (.inr hc)
    rw [h.named c (List.mem_cons_of_mem x hc) buf, heldBy_freed]
    split
    next he => simp [he, Ne.symm hne]
    next => rfl
  held := fun buf y hy => by
    rw [heldBy_freed] at hy
    split at hy
    · cases hy
    next hne =>
      obtain ⟨c, hc, rfl⟩ := h.held buf y hy
      rcases List.mem_cons.1 hc with rfl | hc
      · exact absurd hy hne
      · exact ⟨c, hc, rfl⟩
  render := by
    have hold := h.render
    have he : inRender q = inRender (x :: q) := by simp [inRender, hx]
    unfold RenderFacts at hold ⊢
    rwa [he]

/-- The oldest composite frees its buffer and stays, PRINTING (R75). -/
theorem QueueFacts.release (h : QueueFacts w (x :: q) n ha hb r) (hx : x.state = .printing) :
    QueueFacts w ({ x with buffer := none } :: q) n (if ha = some x.seq then none else ha)
      (if hb = some x.seq then none else hb) r := by
  have hsits := h.sits x List.mem_cons_self
  refine h.replace (pre := []) rfl ?_ (fun e => e) (fun _ => rfl) (fun buf => ?_) (fun buf y hy => ?_) ?_
  · exact { hsits with
      bare := fun hl => ⟨(hsits.bare hl).1, (hsits.bare hl).2.1, rfl⟩
      unbuffered := fun _ => rfl
      buffered := by simp [hx] }
  · rw [heldBy_freed]
    split <;> simp_all
  · rw [heldBy_freed]
    split
    next he => simp [he, Ne.symm hy]
    next => rfl
  · exact h.render.replace (pre := []) (by simp [hx]) (by simp [hx])

/-- The composite in rendering becomes READY with its buffer (R72). -/
theorem QueueFacts.completeRender (h : QueueFacts w q n ha hb r) :
    QueueFacts w (updateFirst (fun c => c.state == .rendering) (fun c => { c with state := .ready }) q) n ha hb none := by
  obtain ⟨hnone, e⟩ | ⟨pre, x, post, rfl, -, hx, e⟩ := updateFirst_cases (fun c : Composite => c.state == .rendering)
    (fun c => { c with state := .ready }) q <;> rw [e]
  · exact { h with render := List.filter_eq_nil_iff.2 fun c hc => by simp [hnone c hc] }
  · have hstate : x.state = .rendering := by simpa using hx
    have hsits := h.sits x (by simp)
    refine h.replace rfl ?_ nofun nofun (h.named x (by simp)) (fun _ _ _ => .rfl) ?_
    · exact { hsits with
        acted := by simpa [hstate] using hsits.acted
        bare := fun hl => absurd hstate (hsits.bare hl).2.1
        unbuffered := nofun
        buffered := fun _ => hsits.buffered (.inl hstate) }
    · have hsplit : inRender (pre ++ x :: post) = inRender pre ++ x :: inRender post := by simp [inRender, hstate]
      have hothers : inRender pre = [] ∧ inRender post = [] := by
        have hold := h.render
        unfold RenderFacts at hold
        rw [hsplit] at hold
        cases r with
        | none => simp at hold
        | some r =>
          obtain ⟨c, hc, -⟩ := hold
          have hlen := congrArg List.length hc
          simp only [List.length_append, List.length_cons, List.length_nil] at hlen
          exact ⟨List.length_eq_zero_iff.1 (by omega), List.length_eq_zero_iff.1 (by omega)⟩
      have hleft : inRender (pre ++ { x with state := .ready } :: post) = inRender pre ++ inRender post := by simp [inRender]
      exact hleft.trans (by rw [hothers.1, hothers.2]; rfl)

/-- A CLOSED composite takes a free buffer and is rendered (R69, R70). -/
theorem QueueFacts.startRender {buf : Buf} {start : Micros} (h : QueueFacts w (pre ++ x :: post) n ha hb none)
    (hx : x.state = .closed) (hfree : heldBy ha hb buf = none)
    (hheld : ∀ k, heldBy ha' hb' k = if k = buf then some x.seq else heldBy ha hb k) :
    QueueFacts w (pre ++ { x with state := .rendering, buffer := some buf } :: post) n ha' hb'
      (some { seq := x.seq, buffer := buf, duration := Config.renderPerLayer * x.layers.length, start := start }) := by
  have hsits := h.sits x (by simp)
  have hunheld (k : Buf) : heldBy ha hb k ≠ some x.seq := fun e => by
    have := (h.named x (by simp) k).2 e
    rw [hsits.unbuffered (.inr hx)] at this
    cases this
  refine h.replace rfl ?_ nofun nofun (fun k => ?_) (fun k y hy => ?_) ?_
  · exact { hsits with
      acted := by simpa [hx] using hsits.acted
      bare := fun hl => absurd hx (hsits.bare hl).1
      unbuffered := by simp
      buffered := fun _ _ => nofun }
  · rw [hheld]
    split
    next e => simp [e]
    next e => simpa [Ne.symm e] using hunheld k
  · rw [hheld]
    split
    next e => simp [e, hfree, Ne.symm hy]
    next => rfl
  · have hold : inRender (pre ++ x :: post) = [] := h.render
    have hothers : inRender pre ++ inRender post = [] := by simpa [inRender, hx] using hold
    obtain ⟨hpre, hpost⟩ := List.append_eq_nil_iff.1 hothers
    refine ⟨{ x with state := .rendering, buffer := some buf }, ?_, rfl, rfl, rfl⟩
    have hsplit : inRender (pre ++ { x with state := .rendering, buffer := some buf } :: post) =
        inRender pre ++ { x with state := .rendering, buffer := some buf } :: inRender post := by simp [inRender]
    rw [hsplit, hpre, hpost]
    rfl

/-- A PRINTING composite alone, with another sequence, the counter behind it, and what it holds of the buffers (R19, R20). -/
theorem QueueFacts.alone (hsits : x.Sits w) (hx : x.state = .printing) (hn : n = x.seq + 1)
    (hheld : ∀ buf, heldBy ha hb buf = if x.buffer = some buf then some x.seq else none) : QueueFacts w [x] n ha hb none where
  short := by simp
  newest := nofun
  oldest := nofun
  numbered := ⟨x.seq, by simp [runsFrom, hn]⟩
  sits := by simpa using hsits
  named := by
    simp only [List.mem_singleton, forall_eq]
    intro buf
    rw [hheld]
    split <;> simp_all
  held := by
    intro buf y hy
    rw [hheld] at hy
    split at hy
    · exact ⟨x, by simp, Option.some.inj hy⟩
    · cases hy
  render := by simp [RenderFacts, inRender, hx]

end Operations

end Sys2Proof.Machine
end

section
/-! What a sound station is, in the terms that the proofs use: the facts that `State.sound` tests, one field for each (R1 to R5, R17,
R24, R31, R43, R51, R57, R67, R68, R98, R125, R127, R130, R131, R142, R144). -/

namespace Sys2Proof.Machine

/-! ## The paper -/

/-- What `State.sound` states of a motion record (R43, R49, R51, R57). -/
structure Motion.Fits (m : Motion) : Prop where
  far : 9 ≤ m.distance
  near : m.distance ≤ 1728
  within : m.steps ≤ m.distance
  rowed : m.row ≠ .none → m.firing = true ∧ 1 ≤ m.steps ∧ m.steps ≤ 9
  timed : m.timer = .stopped ↔ m.steps ≠ m.distance

theorem Motion.fits_iff (m : Motion) : m.fits = true ↔ m.Fits := by
  have htimed : ((m.timer == .stopped) == (m.steps != m.distance)) = true ↔ (m.timer = .stopped ↔ m.steps ≠ m.distance) := by
    rw [beq_iff_eq, Bool.eq_iff_iff, beq_iff_eq, bne_iff_ne]
  simp only [Motion.fits, Bool.and_eq_true, htimed, decide_eq_true_eq, Bool.or_eq_true, beq_iff_eq]
  constructor
  · rintro ⟨⟨⟨⟨hf, hn⟩, hw⟩, hr⟩, ht⟩
    exact ⟨hf, hn, hw, fun hne => by simpa [and_assoc] using hr.resolve_left hne, ht⟩
  · intro h
    refine ⟨⟨⟨⟨h.far, h.near⟩, h.within⟩, ?_⟩, h.timed⟩
    by_cases hr : m.row = .none
    · exact .inl hr
    · exact .inr (and_assoc.2 (h.rowed hr))

/-- The composite that a line's motion prints (R17, R43, R51, R79). -/
structure Motion.Prints (m : Motion) (c : Composite) : Prop where
  printing : c.state = .printing
  layered : m.firing = true → c.layers ≠ []
  unstepped : m.steps = 0 → (m.firing = true ↔ c.layers ≠ [])
  imaged : m.firing = true → (9 ≤ m.steps ∧ m.row = .none) ∨ c.buffer ≠ none

/-- The motion record against the queue: a FEED fires nothing and no composite prints, a line's motion prints the oldest (R17). -/
def PrintsOf (q : List Composite) : Option Motion → Prop
  | none => ∀ c ∈ q, c.state ≠ .printing
  | some m => (m.feed = true ∧ m.firing = false ∧ ∀ c ∈ q, c.state ≠ .printing) ∨
      (m.feed = false ∧ ∃ c rest, q = c :: rest ∧ m.Prints c)

/-- The motion record and the plan go together (R31, R36, R43). -/
def PlanOf (length : Nat) : Option Motion → Option Plan → Prop
  | none, none => True
  | some m, some p => m.Fits ∧ p.distance = m.distance ∧ p.landing < length
  | _, _ => False

theorem Motion.prints_iff (m : Motion) (c : Composite) :
    (c.state == .printing && (!m.firing || !c.layers.isEmpty) && (m.steps != 0 || m.firing == !c.layers.isEmpty) &&
      (!m.firing || (decide (9 ≤ m.steps) && m.row == .none) || c.buffer.isSome)) = true ↔ m.Prints c := by
  have hlayers : (!c.layers.isEmpty) = true ↔ c.layers ≠ [] := by simp
  have hlayered : (!m.firing || !c.layers.isEmpty) = true ↔ (m.firing = true → c.layers ≠ []) := by
    cases m.firing <;> simp
  have hunstepped : (m.steps != 0 || m.firing == !c.layers.isEmpty) = true ↔
      (m.steps = 0 → (m.firing = true ↔ c.layers ≠ [])) := by
    rw [Bool.or_eq_true, bne_iff_ne, beq_iff_eq, Bool.eq_iff_iff, hlayers]
    tauto
  have himaged : (!m.firing || (decide (9 ≤ m.steps) && m.row == .none) || c.buffer.isSome) = true ↔
      (m.firing = true → (9 ≤ m.steps ∧ m.row = .none) ∨ c.buffer ≠ none) := by
    cases m.firing <;> simp [Option.isSome_iff_ne_none]
  rw [Bool.and_eq_true, Bool.and_eq_true, Bool.and_eq_true, hlayered, hunstepped, himaged, beq_iff_eq]
  exact ⟨fun ⟨⟨⟨hp, hl⟩, hu⟩, hi⟩ => ⟨hp, hl, hu, hi⟩, fun h => ⟨⟨⟨h.printing, h.layered⟩, h.unstepped⟩, h.imaged⟩⟩

theorem State.printingFits_iff (s : State) : s.printingFits = true ↔ PrintsOf s.queue s.motion := by
  unfold State.printingFits PrintsOf
  cases s.motion with
  | none => simp
  | some m =>
    cases hf : m.feed with
    | true => simp [hf]
    | false =>
      cases s.queue with
      | nil => simp [hf]
      | cons c rest =>
        simp only [hf, Bool.false_eq_true, if_false, false_and, false_or, true_and, m.prints_iff]
        exact ⟨fun h => ⟨c, rest, rfl, h⟩, fun ⟨_, _, he, h⟩ => (List.cons.inj he).1 ▸ h⟩

theorem State.motionFits_iff (s : State) : s.motionFits = true ↔ PlanOf s.form.length s.motion s.plan := by
  unfold State.motionFits PlanOf
  cases s.motion <;> cases s.plan <;> simp [Motion.fits_iff, and_assoc]

/-! ## The parser -/

theorem State.hasOpen_iff (s : State) : s.hasOpen = true ↔ ∃ c ∈ s.queue, c.state = .opened := by
  simp [State.hasOpen]

theorem State.hasOpen_eq_false_iff (s : State) : s.hasOpen = false ↔ ∀ c ∈ s.queue, c.state ≠ .opened := by
  simp [State.hasOpen]

/-- What `State.sound` states of the parser record, by what it has in hand; `w` is the effective width, `q` the queue and `m` the
motion record (R7, R73, R96, R98, R99, R104). -/
inductive ParserFacts (w : Nat) (q : List Composite) (m : Option Motion) (p : Parser) : Prop
  | idle (state : p.state = .idle) (order : p.order = none) (layer : p.layer = none)
  | place {o : RecordOrder} (state : p.state = .awaitPlace) (order : p.order = some o) (layer : p.layer = none)
      (line : isLineOrder o = true) (fits : orderFits o = true) (unopened : ∀ c ∈ q, c.state ≠ .opened)
  | drain {o : RecordOrder} (state : p.state = .awaitDrain) (order : p.order = some o) (layer : p.layer = none)
      (load : o = .loadForm ∨ o = .loadGlyph)
  | print {o : RecordOrder} {b : LayerBuild} (state : p.state = .body) (order : p.order = some o) (layer : p.layer = some b)
      (prints : isPrint o = true) (fits : orderFits o = true) (wide : b.cells.length = w) (opened : ∃ c ∈ q, c.state = .opened)
  | form (state : p.state = .body) (order : p.order = some .loadForm) (layer : p.layer = none)
      (drained : ∀ c ∈ q, c.state = .opened) (rest : m = none)
  | codes (state : p.state = .body) (order : p.order = some .loadCodes) (layer : p.layer = none)
  | glyph (state : p.state = .body) (order : p.order = some .loadGlyph) (layer : p.layer = none)
      (stage : p.glyphFits = true) (drained : ∀ c ∈ q, c.state = .opened)

theorem State.parserFits_iff (s : State) :
    s.parserFits = true ↔ ParserFacts s.straps.effective s.queue s.motion s.parser := by
  constructor
  · intro h
    simp only [State.parserFits, Parser.fits, Bool.and_eq_true] at h
    obtain ⟨⟨⟨⟨hshape, horder⟩, hlayer⟩, hglyph⟩, hqueue⟩ := h
    cases hs : s.parser.state <;> cases ho : s.parser.order <;> simp only [hs, ho, Bool.false_eq_true] at hshape hqueue
    case idle.none => exact .idle hs ho (by simpa using hshape)
    case awaitPlace.some o =>
      obtain ⟨hline, hl⟩ : isLineOrder o = true ∧ s.parser.layer = none := by simpa using hshape
      exact .place hs ho hl hline (by simpa [ho] using horder) (s.hasOpen_eq_false_iff.1 (by simpa using hqueue))
    case awaitDrain.some o =>
      obtain ⟨hload, hl⟩ : (o = .loadForm ∨ o = .loadGlyph) ∧ s.parser.layer = none := by simpa using hshape
      exact .drain hs ho hl hload
    case body.some o =>
      simp only [Bool.and_eq_true] at hqueue
      obtain ⟨⟨hopen, hdrained⟩, hrest⟩ := hqueue
      obtain ⟨hp, hl⟩ | ⟨hload, hl⟩ :
          (isPrint o = true ∧ s.parser.layer.isSome = true) ∨
            (((o = .loadForm ∨ o = .loadCodes) ∨ o = .loadGlyph) ∧ s.parser.layer = none) := by simpa using hshape
      · obtain ⟨b, hb⟩ := Option.isSome_iff_exists.1 hl
        exact .print hs ho hb hp (by simpa [ho] using horder) (by simpa [Parser.layerFits, hb] using hlayer)
          (s.hasOpen_iff.1 (by simpa [hp] using hopen))
      · rcases hload with (rfl | rfl) | rfl
        · exact .form hs ho hl (by simpa using hdrained) (by simpa using hrest)
        · exact .codes hs ho hl
        · exact .glyph hs ho hl (by simpa [hs, ho] using hglyph) (by simpa using hdrained)
  · intro h
    simp only [State.parserFits, Parser.fits, Parser.layerFits, Bool.and_eq_true]
    cases h with
    | idle state order layer => simp [state, order, layer]
    | place state order layer line fits unopened =>
      simp [state, order, layer, line, fits, s.hasOpen_eq_false_iff.2 unopened]
    | drain state order layer load => rcases load with rfl | rfl <;> simp [state, order, layer, orderFits, lineAction]
    | @print o b state order layer prints fits wide opened =>
      have hload : o ≠ .loadForm ∧ o ≠ .loadGlyph := by constructor <;> rintro rfl <;> cases prints
      simp [state, order, layer, prints, fits, wide, s.hasOpen_iff.2 opened, hload]
    | form state order layer drained rest =>
      simpa [state, order, layer, rest, orderFits, lineAction, isPrint] using drained
    | codes state order layer => simp [state, order, layer, orderFits, lineAction, isPrint]
    | glyph state order layer stage drained =>
      simpa [state, order, layer, stage, orderFits, lineAction, isPrint] using drained

/-! ## The station -/

/-- A sound station, but for the sizes and the sets that other statements are about: each field is a clause of `State.sound`, or the
part of one, on the fields of the state that it names. -/
structure State.Good (s : State) : Prop where
  queue : QueueFacts s.straps.effective s.queue s.counter s.bufA.holder s.bufB.holder s.render
  prints : PrintsOf s.queue s.motion
  plan : PlanOf s.form.length s.motion s.plan
  form : 1 ≤ s.form.length ∧ s.form.length ≤ 144
  line : s.line < s.form.length
  ownFault : s.faults ≠ [] → s.faultLow = true
  cutDrive : s.faultLow = true → s.stepDrive = .held
  cutMotion : s.faultLow = true → ∀ m, s.motion = some m → (∀ t, m.row ≠ .firing t) ∧ ∀ t, m.timer ≠ .running t
  pends : s.stops.any = true → ∃ m, s.motion = some m ∧ 1 ≤ m.steps
  drive : s.stepDrive = .held ∨ s.motion ≠ none
  resetMode : s.rstLow = true → s.mode = .starting
  startingClear : s.mode = .starting → s.faults = []
  idleQueue : s.mode.working = false → s.queue = []
  idleMotion : s.mode.working = false → s.motion = none
  idleInput : s.mode.working = false → s.inputBuffer = []
  idleParser : s.mode.working = false → s.parser.state = .idle
  heldMotion : s.mode = .held → s.motion = none
  startTimed : s.startInterval ≠ none → s.mode = .starting ∧ s.rstLow = false
  formTimed : s.formingInterval ≠ none → s.mode = .forming
  parser : ParserFacts s.straps.effective s.queue s.motion s.parser
  glyphs : ∀ g ∈ s.loadable, g.length = 9
  sense : ∀ r, s.senseRead = some r → r.index ≤ 8
  straps : 1 ≤ s.straps.fcol ∧ s.straps.fcol ≤ 192 ∧ 8 ≤ s.straps.width ∧ s.straps.width ≤ 32


theorem State.faultFits_iff (s : State) :
    s.faultFits = true ↔ (s.faults ≠ [] → s.faultLow = true) ∧ (s.faultLow = true → s.stepDrive = .held) ∧
      (s.faultLow = true → ∀ m, s.motion = some m → (∀ t, m.row ≠ .firing t) ∧ ∀ t, m.timer ≠ .running t) := by
  have hown : (s.faults.isEmpty || s.faultLow) = true ↔ (s.faults ≠ [] → s.faultLow = true) := by
    rw [Bool.or_eq_true, List.isEmpty_iff]
    tauto
  have hmotion : (!s.fireOn && (match s.motion with
      | some m => (match m.timer with | .running _ => false | _ => true)
      | none => true)) = true ↔
        ∀ m, s.motion = some m → (∀ t, m.row ≠ .firing t) ∧ ∀ t, m.timer ≠ .running t := by
    unfold State.fireOn
    cases s.motion with
    | none => simp
    | some m => cases hr : m.row <;> cases ht : m.timer <;> simp [hr, ht]
  have hcut : (!s.faulted || (s.holdsStep && !s.fireOn && (match s.motion with
      | some m => (match m.timer with | .running _ => false | _ => true)
      | none => true))) = true ↔
        (s.faulted = true → s.stepDrive = .held ∧
          ∀ m, s.motion = some m → (∀ t, m.row ≠ .firing t) ∧ ∀ t, m.timer ≠ .running t) := by
    rw [Bool.and_assoc, Bool.or_eq_true, Bool.and_eq_true, hmotion, Bool.not_eq_true', State.holdsStep, beq_iff_eq]
    cases s.faulted <;> simp
  have hf : s.faulted = true ↔ s.faults ≠ [] ∨ s.faultLow = true := by simp [State.faulted]
  unfold State.faultFits
  rw [Bool.and_eq_true, hown]
  refine and_congr_right fun ho => (hcut.trans ?_)
  rw [hf, or_iff_right_of_imp ho]
  exact forall_and

theorem State.modeFits_iff (s : State) :
    s.modeFits = true ↔ (s.rstLow = true → s.mode = .starting) ∧ (s.mode = .starting → s.faults = []) ∧
      (s.mode.working = false → s.queue = [] ∧ s.motion = none ∧ s.render = none ∧ s.inputBuffer = [] ∧
        s.parser.state = .idle ∧ s.stops.any = false) ∧
      (s.mode = .held → s.motion = none) ∧ (s.startInterval ≠ none → s.mode = .starting ∧ s.rstLow = false) ∧
      (s.formingInterval ≠ none → s.mode = .forming) := by
  have himp (p q : Bool) : (!p || q) = true ↔ (p = true → q = true) := by cases p <;> simp
  have hnone {α : Type} (o : Option α) (p : Bool) : (o.isNone || p) = true ↔ (o ≠ none → p = true) := by cases o <;> simp
  have hworking (p q : Bool) : (p || q) = true ↔ (p = false → q = true) := by cases p <;> simp
  have hne (m n : Mode) (q : Bool) : (m != n || q) = true ↔ (m = n → q = true) := by
    rw [Bool.or_eq_true, bne_iff_ne]
    tauto
  simp only [State.modeFits, Bool.and_eq_true, hne, himp, hnone, hworking s.mode.working, beq_iff_eq, List.isEmpty_iff,
    Option.isNone_iff_eq_none, Bool.not_eq_true', and_assoc]

/-- `State.sound`, in these terms. -/
theorem State.sound_iff (s : State) :
    s.sound = true ↔ s.Good ∧ s.storesSized ∧ s.inputBuffer.length ≤ 2 ∧ s.faults.Nodup ∧ s.warnings.Nodup := by
  have hsense : s.senseFits = true ↔ ∀ r, s.senseRead = some r → r.index ≤ 8 := by
    unfold State.senseFits
    cases s.senseRead <;> simp
  have hstops : s.stopsFit = true ↔ (s.stops.any = true → ∃ m, s.motion = some m ∧ 1 ≤ m.steps) := by
    unfold State.stopsFit
    cases s.stops.any <;> cases s.motion <;> simp
  have hdrive : s.driveFits = true ↔ (s.stepDrive = .held ∨ s.motion ≠ none) := by
    simp [State.driveFits, State.holdsStep, Option.isSome_iff_ne_none]
  simp only [State.sound, Bool.and_eq_true, and_assoc]
  rw [s.printingFits_iff, s.motionFits_iff, s.parserFits_iff, s.faultFits_iff, s.modeFits_iff, hsense, hstops, hdrive]
  simp only [State.formFits, State.storesFit, State.inputFits, State.setsFit, State.strapsFit, Bool.and_eq_true,
    decide_eq_true_eq, beq_iff_eq, List.all_eq_true, and_assoc]
  constructor
  · rintro ⟨h1, h2, h3, h4, h5, hprints, hplan, hf1, hf144, hline, hcodes, hloads, hglyphs, hA, hB, hinput, hfaults, hwarnings,
      hown, hcutd, hcutm, hpends, hd, hreset, hstart, hidle, hheld, hstarted, hformed, hparser, hr, hs1, hs192, hs8, hs32⟩
    exact ⟨⟨s.queueFacts_iff.2 ⟨h1, h2, h3, h4, h5⟩, hprints, hplan, ⟨hf1, hf144⟩, hline, hown, hcutd, hcutm, hpends, hd, hreset,
      hstart, fun h => (hidle h).1, fun h => (hidle h).2.1, fun h => (hidle h).2.2.2.1, fun h => (hidle h).2.2.2.2.1, hheld,
      hstarted, hformed, hparser, hglyphs, hr, hs1, hs192, hs8, hs32⟩, ⟨hcodes, hloads, hA, hB⟩, hinput, hfaults, hwarnings⟩
  · rintro ⟨h, ⟨hcodes, hloads, hA, hB⟩, hinput, hfaults, hwarnings⟩
    obtain ⟨h1, h2, h3, h4, h5⟩ := s.queueFacts_iff.1 h.queue
    have hrender (hw : s.mode.working = false) : s.render = none := by
      have hr := h.queue.render
      rw [h.idleQueue hw] at hr
      cases he : s.render with
      | none => rfl
      | some r =>
        rw [he] at hr
        obtain ⟨c, hc, -⟩ := hr
        cases hc
    have hstops (hw : s.mode.working = false) : s.stops.any = false := by
      by_contra hne
      obtain ⟨m, hm, -⟩ := h.pends (by simpa using hne)
      rw [h.idleMotion hw] at hm
      cases hm
    exact ⟨h1, h2, h3, h4, h5, h.prints, h.plan, h.form.1, h.form.2, h.line, hcodes, hloads, h.glyphs, hA, hB, hinput, hfaults,
      hwarnings, h.ownFault, h.cutDrive, h.cutMotion, h.pends, h.drive, h.resetMode, h.startingClear,
      fun hw => ⟨h.idleQueue hw, h.idleMotion hw, hrender hw, h.idleInput hw, h.idleParser hw, hstops hw⟩, h.heldMotion,
      h.startTimed, h.formTimed, h.parser, h.sense, h.straps⟩

end Sys2Proof.Machine
end

section
/-! The parser keeps a station sound (R98 to R121): the orders, the body bytes and the ends of the records. -/

namespace Sys2Proof.Machine

/-! ## The queue, as the parser changes it -/

/-- A change of a composite that does not print is none of the motion's (R17). -/
theorem PrintsOf.updateFirst {q : List Composite} {m : Option Motion} (h : PrintsOf q m) {p : Composite → Bool}
    {f : Composite → Composite} (hp : ∀ c, p c = true → c.state ≠ .printing) (hf : ∀ c, p c = true → (f c).state ≠ .printing) :
    PrintsOf (Machine.updateFirst p f q) m := by
  have hnone (hq : ∀ c ∈ q, c.state ≠ .printing) : ∀ c ∈ Machine.updateFirst p f q, c.state ≠ .printing := by
    obtain ⟨-, e⟩ | ⟨pre, x, post, rfl, -, hx, e⟩ := updateFirst_cases p f q <;> rw [e]
    · exact hq
    · simp only [List.mem_append, List.mem_cons, or_imp, forall_and, forall_eq] at hq ⊢
      exact ⟨hq.1, hf x hx, hq.2.2⟩
  cases m with
  | none => exact hnone h
  | some m =>
    rcases h with ⟨hfeed, hfire, hq⟩ | ⟨hfeed, c, rest, rfl, hc⟩
    · exact .inl ⟨hfeed, hfire, hnone hq⟩
    · have hhead : ¬p c = true := fun hpc => hp c hpc hc.printing
      exact .inr ⟨hfeed, c, Machine.updateFirst p f rest, by rw [Machine.updateFirst, if_neg hhead], hc⟩

theorem PrintsOf.create {q : List Composite} {m : Option Motion} (h : PrintsOf q m) (n : BitVec 7) :
    PrintsOf (q ++ [{ seq := n }]) m := by
  have hnone (hq : ∀ c ∈ q, c.state ≠ .printing) : ∀ c ∈ q ++ [{ seq := n }], c.state ≠ .printing := by
    simpa [or_imp, forall_and] using hq
  cases m with
  | none => exact hnone h
  | some m =>
    rcases h with ⟨hfeed, hfire, hq⟩ | ⟨hfeed, c, rest, rfl, hc⟩
    · exact .inl ⟨hfeed, hfire, hnone hq⟩
    · exact .inr ⟨hfeed, c, rest ++ [{ seq := n }], rfl, hc⟩

section Composite
variable {w : Nat} {c : Composite}

/-- The OPEN composite with an action is CLOSED or, with no layer, READY (R15). -/
theorem Composite.Sits.close (h : c.Sits w) (hc : c.state = .opened) {a : Action} (ha : a.fits = true) : (c.close a).Sits w where
  few := h.few
  wide := h.wide
  inRange := fun b hb => by cases hb; exact ha
  acted := by
    unfold Composite.close
    cases c.layers <;> simp
  bare := fun hl => by
    have hl' : c.layers = [] := hl
    simp [Composite.close, hl', h.unbuffered (.inl hc)]
  unbuffered := fun _ => h.unbuffered (.inl hc)
  buffered := fun hs hl => by
    have hl' : c.layers ≠ [] := hl
    simp [Composite.close, hl'] at hs

/-- A layer of W cells is appended, or dropped as the fifth (R2, R3, R13). -/
theorem Composite.Sits.offer (h : c.Sits w) (hc : c.state = .opened) {l : Layer} (hl : l.length = w) (k : Mark) (b : Bool) :
    (c.offer l k b).Sits w := by
  by_cases hfull : 4 ≤ c.layers.length
  · have he : (c.offer l k b).layers = c.layers := by simp [Composite.offer, hfull]
    exact { h with
      few := he ▸ h.few
      wide := he ▸ h.wide
      bare := he ▸ h.bare
      buffered := by rintro (hs | hs) <;> cases hc.symm.trans hs }
  · have he : (c.offer l k b).layers = c.layers ++ [l] := by simp [Composite.offer, hfull]
    exact { h with
      few := by rw [he, List.length_append, List.length_singleton]; omega
      wide := by
        rw [he]
        simpa [or_imp, forall_and, hl] using h.wide
      bare := fun hn => by rw [he] at hn; simp at hn
      buffered := by rintro (hs | hs) <;> cases hc.symm.trans hs }

end Composite

/-! ## The parser's own updates -/

section Updates
variable {s : State}

theorem State.Good.clearParser (h : s.Good) : s.clearParser.Good :=
  { h with
    parser := .idle rfl rfl rfl
    idleParser := fun _ => rfl }

/-- An IDLE parser has nothing in hand, whatever the queue (R98). -/
theorem State.Good.idle (h : s.Good) (hi : s.parser.state = .idle) (q : List Composite) (m : Option Motion) :
    ParserFacts s.straps.effective q m s.parser := by
  cases h.parser with
  | idle state order layer => exact .idle state order layer
  | place state | drain state | print state | form state | codes state | glyph state => exact absurd (hi.symm.trans state) nofun

theorem State.Good.withParser (h : s.Good) (hw : s.mode.working = true) {p : Parser}
    (hp : ParserFacts s.straps.effective s.queue s.motion p) : ({ s with parser := p } : State).Good :=
  { h with
    parser := hp
    idleParser := fun hn => absurd (hw.symm.trans hn) nofun }

theorem State.Good.raise (h : s.Good) (x : Warning) : (s.raise x).Good := { h with }

theorem State.Good.raiseAll (h : s.Good) (l : List Warning) : (s.raiseAll l).Good := by
  rw [State.raiseAll_eq]
  exact { h with }

theorem State.Good.onOpen (h : s.Good) (hi : s.parser.state = .idle) {f : Composite → Composite}
    (hseq : ∀ c, (f c).seq = c.seq) (hbuf : ∀ c, (f c).buffer = c.buffer)
    (hstate : ∀ c, c.state = .opened → (f c).state ≠ .printing ∧ (f c).state ≠ .rendering)
    (hsits : ∀ c, c.state = .opened → c.Sits s.straps.effective → (f c).Sits s.straps.effective) : (s.onOpen f).Good :=
  { h with
    queue := h.queue.onOpen hseq hbuf hstate hsits
    prints := h.prints.updateFirst (fun c hc => by rw [beq_iff_eq.1 hc]; nofun) fun c hc => (hstate c (beq_iff_eq.1 hc)).1
    idleQueue := fun hn => by rw [State.onOpen, h.idleQueue hn]; rfl
    parser := h.idle hi _ _ }

theorem State.Good.closeOpen (h : s.Good) (hi : s.parser.state = .idle) {a : Action} (ha : a.fits = true) :
    (s.closeOpen a).Good := by
  refine h.onOpen hi (fun _ => rfl) (fun _ => rfl) (fun c _ => ?_) fun c hc hs => hs.close hc ha
  unfold Composite.close
  cases c.layers <;> simp

theorem State.Good.offerLayer (h : s.Good) (hi : s.parser.state = .idle) {l : Layer} (hl : l.length = s.straps.effective)
    (k : Mark) (b : Bool) : (s.offerLayer l k b).Good := by
  unfold State.offerLayer
  split
  · refine State.Good.raiseAll (h.onOpen (f := Composite.offer l k b) hi (fun _ => rfl) (fun _ => rfl) (fun c hc => ?_)
      fun c hc hs => hs.offer hc hl k b) _
    exact ⟨fun e => absurd (hc.symm.trans e) nofun, fun e => absurd (hc.symm.trans e) nofun⟩
  · exact h

theorem State.Good.createComposite (h : s.Good) (hw : s.mode.working = true) (hi : s.parser.state = .idle)
    (hlen : s.queue.length < 4) (hopen : ∀ c ∈ s.queue, c.state ≠ .opened) : s.createComposite.Good :=
  { h with
    queue := h.queue.create hlen hopen
    prints := h.prints.create _
    idleQueue := fun hn => absurd (hw.symm.trans hn) nofun
    parser := h.idle hi _ _ }

/-! ## The ends of the records -/

theorem State.clearParser_offerLayer (s : State) (l : Layer) (k : Mark) (b : Bool) :
    (s.offerLayer l k b).clearParser = s.clearParser.offerLayer l k b := by
  have hq : s.clearParser.queue = s.queue := rfl
  unfold State.offerLayer
  rw [hq]
  cases s.queue.find? fun c => c.state == .opened with
  | none => rfl
  | some c =>
    simp only [State.raiseAll_eq]
    rfl

/-- The end of a PRINT record leaves a sound station, whatever the parser had in hand (R104, R116). -/
theorem State.Good.finishPrint (h : s.clearParser.Good) {o : RecordOrder} (ho : orderFits o = true)
    (hl : ∀ b, s.parser.layer = some b → b.cells.length = s.straps.effective) (short : Bool) : (s.finishPrint o short).Good := by
  have hlayer : ((s.parser.layer.getD (.fresh s.straps.effective)).complete).length = s.straps.effective := by
    cases hb : s.parser.layer with
    | none => simp [LayerBuild.complete, LayerBuild.fresh]
    | some b => simpa [LayerBuild.complete] using hl b hb
  have hoffer := h.offerLayer rfl hlayer (s.parser.layer.getD (.fresh s.straps.effective)).mark short
  unfold State.finishPrint
  unfold orderFits at ho
  cases ha : lineAction o with
  | none =>
    simp only [State.clearParser_offerLayer]
    exact hoffer
  | some a =>
    rw [ha] at ho
    show (((s.offerLayer _ _ short).clearParser).closeOpen a).Good
    rw [State.clearParser_offerLayer]
    refine hoffer.closeOpen ?_ ho
    rw [← State.clearParser_offerLayer]
    rfl

/-- An accepted form image has a length from 1 to 144 (R28). -/
theorem FormStage.judge_length {g : FormStage} {f : FormImage} (h : g.judge = some f) : 1 ≤ f.length ∧ f.length ≤ 144 := by
  unfold FormStage.judge at h
  split at h
  · split at h
    next hl => cases h; exact hl
    next => cases h
  · cases h

/-- A form is installed at rest alone, so no plan speaks of the old one (R28, R29, R31). -/
theorem State.Good.finishForm (h : s.clearParser.Good) (hm : s.motion = none) : s.finishForm.Good := by
  have hplan : PlanOf s.form.length s.motion s.plan := h.plan
  unfold State.finishForm
  cases hj : s.parser.formStage.judge with
  | none => exact { h with }
  | some f =>
    obtain ⟨h1, h144⟩ := FormStage.judge_length hj
    refine { h with plan := ?_, form := ⟨h1, h144⟩, line := h1 }
    rw [hm] at hplan
    show PlanOf f.length s.motion s.plan
    rw [hm]
    cases hp : s.plan with
    | none => trivial
    | some p => rw [hp] at hplan; exact hplan

theorem State.Good.finishCodes (h : s.clearParser.Good) : s.finishCodes.Good := by
  unfold State.finishCodes
  split
  · split
    · exact { h with }
    · exact { h with }
  · exact { h with }

theorem State.Good.finishGlyph (h : s.clearParser.Good) (hr : s.parser.glyphStage.rows.length = 9) : s.finishGlyph.Good := by
  unfold State.finishGlyph
  split
  · split
    · exact { h with glyphs := fun g hg => (List.mem_or_eq_of_mem_set hg).elim (h.glyphs g) fun e => e ▸ hr }
    · exact { h with }
  · exact { h with }

/-! ## The body bytes -/

/-- What the body of a PRINT record has in hand (R98, R104). -/
theorem ParserFacts.ofPrint {w : Nat} {q : List Composite} {m : Option Motion} {p : Parser} (h : ParserFacts w q m p)
    {o : RecordOrder} (hs : p.state = .body) (hor : p.order = some o) (ho : isPrint o = true) :
    ∃ b, p.layer = some b ∧ orderFits o = true ∧ b.cells.length = w ∧ ∃ c ∈ q, c.state = .opened := by
  cases h with
  | print state order layer prints fits wide opened =>
    cases hor.symm.trans order
    exact ⟨_, layer, fits, wide, opened⟩
  | idle state | place state | drain state => exact absurd (hs.symm.trans state) nofun
  | form _ order | codes _ order | glyph _ order => cases hor.symm.trans order; cases ho

/-- The column of a byte changes nothing but the cells of the layer (R103, R105). -/
theorem State.Good.printByte (h : s.Good) (hw : s.mode.working = true) {o : RecordOrder} (hs : s.parser.state = .body)
    (hor : s.parser.order = some o) (ho : isPrint o = true) (v : Byte) :
    (s.printByte v).Good ∧ (s.printByte v).parser.state = .body ∧ (s.printByte v).parser.order = some o := by
  obtain ⟨b, hb, hfit, hwide, hopen⟩ := h.parser.ofPrint hs hor ho
  unfold State.printByte
  dsimp only
  split
  · refine ⟨h.withParser hw (.print hs hor rfl ho hfit ?_ hopen), hs, hor⟩
    simpa [hb, LayerBuild.place] using hwide
  · split
    · exact ⟨h.withParser hw (.print hs hor hb ho hfit hwide hopen), hs, hor⟩
    · split
      · exact ⟨h.withParser hw (.print hs hor hb ho hfit hwide hopen), hs, hor⟩
      · exact ⟨(h.raise .longRecord).withParser hw (.print hs hor hb ho hfit hwide hopen), hs, hor⟩

/-- A record goes on with bytes to come, or ends with none (R102). -/
theorem State.goodGoesOn {p : Parser} {o : RecordOrder} {n : Nat}
    (hnext : n ≠ 0 → ({ s with parser := { p with remaining := some n } } : State).Good)
    (hend : n = 0 → (({ s with parser := { p with remaining := some n } } : State).finishRecord o).Good) :
    (({ s with parser := p } : State).withRemaining o n).Good := by
  unfold State.withRemaining
  dsimp only
  split
  next h => exact hend h
  next h => exact hnext h

/-- Without its parser record the station is as sound as it was. -/
theorem State.Good.cleared (h : s.Good) (p : Parser) : (({ s with parser := p } : State).clearParser).Good :=
  { h with
    parser := .idle rfl rfl rfl
    idleParser := fun _ => rfl }

theorem State.Good.printGoesOn (h : s.Good) (hw : s.mode.working = true) {o : RecordOrder} (hs : s.parser.state = .body)
    (hor : s.parser.order = some o) (ho : isPrint o = true) (n : Nat) : (s.withRemaining o n).Good := by
  obtain ⟨b, hb, hfit, hwide, hopen⟩ := h.parser.ofPrint hs hor ho
  refine State.goodGoesOn (fun _ => h.withParser hw (.print hs hor hb ho hfit hwide hopen)) fun _ => ?_
  have hend := State.Good.finishPrint (s := { s with parser := { s.parser with remaining := some n } }) (h.cleared _) hfit
    (fun x hx => by cases hb.symm.trans hx; exact hwide) false
  cases o with
  | printSpace | printSkip => exact hend
  | _ => cases ho

theorem State.Good.bodyByte_print (h : s.Good) (hw : s.mode.working = true) {o : RecordOrder} (hs : s.parser.state = .body)
    (hor : s.parser.order = some o) (ho : isPrint o = true) (v : Byte) : (s.bodyByte o v).Good := by
  obtain ⟨b, -, hfit, -, hopen⟩ := h.parser.ofPrint hs hor ho
  have hfirst (p : Parser) (hps : p.state = .body) (hpo : p.order = some o) (hpl : p.layer = some (.fresh s.straps.effective)) :
      (({ s with parser := p } : State).withRemaining o v.toNat).Good :=
    (h.withParser hw (.print hps hpo hpl ho hfit (by simp [LayerBuild.fresh]) hopen)).printGoesOn hw hps hpo ho _
  have hnext (n : Nat) : ((s.printByte v).withRemaining o n).Good := by
    obtain ⟨hgood, hs', hor'⟩ := h.printByte hw hs hor ho v
    exact hgood.printGoesOn (by rw [s.printByte_parserFrame v]; exact hw) hs' hor' ho n
  unfold State.bodyByte
  cases o with
  | printSpace | printSkip =>
    dsimp only
    split
    · exact hfirst _ hs hor rfl
    · exact hnext _
  | _ => cases ho

theorem State.Good.bodyByte_form (h : s.Good) (hw : s.mode.working = true) (hs : s.parser.state = .body)
    (hor : s.parser.order = some .loadForm) (hl : s.parser.layer = none) (hq : ∀ c ∈ s.queue, c.state = .opened)
    (hm : s.motion = none) (v : Byte) : (s.bodyByte .loadForm v).Good := by
  have hbody (p : Parser) (hps : p.state = .body) (hpo : p.order = some .loadForm) (hpl : p.layer = none) :
      ({ s with parser := p } : State).Good := h.withParser hw (.form hps hpo hpl hq hm)
  have hgoes (p : Parser) (n : Nat) (hps : p.state = .body) (hpo : p.order = some .loadForm) (hpl : p.layer = none) :
      (({ s with parser := p } : State).withRemaining .loadForm n).Good :=
    State.goodGoesOn (fun _ => hbody _ hps hpo hpl) fun _ => State.Good.finishForm (h.cleared _) hm
  unfold State.bodyByte
  dsimp only
  split
  · exact hbody _ hs hor hl
  · exact hgoes _ _ hs hor hl
  · exact hgoes _ _ hs hor hl

theorem State.Good.bodyByte_codes (h : s.Good) (hw : s.mode.working = true) (hs : s.parser.state = .body)
    (hor : s.parser.order = some .loadCodes) (hl : s.parser.layer = none) (v : Byte) : (s.bodyByte .loadCodes v).Good := by
  have hbody (p : Parser) (hps : p.state = .body) (hpo : p.order = some .loadCodes) (hpl : p.layer = none) :
      ({ s with parser := p } : State).Good := h.withParser hw (.codes hps hpo hpl)
  have hgoes (p : Parser) (n : Nat) (hps : p.state = .body) (hpo : p.order = some .loadCodes) (hpl : p.layer = none) :
      (({ s with parser := p } : State).withRemaining .loadCodes n).Good :=
    State.goodGoesOn (fun _ => hbody _ hps hpo hpl) fun _ => State.Good.finishCodes (h.cleared _)
  unfold State.bodyByte
  dsimp only
  split
  · exact hbody _ hs hor hl
  · exact hgoes _ _ hs hor hl
  · exact hgoes _ _ hs hor hl

theorem State.finishRecord_loadGlyph (s : State) : s.finishRecord .loadGlyph = s.finishGlyph := rfl

/-- The count of the bytes to come is that of the rows not yet staged, so the record ends with the ninth row (R95, R102). -/
theorem State.Good.bodyByte_glyph (h : s.Good) (hw : s.mode.working = true) (hs : s.parser.state = .body)
    (hor : s.parser.order = some .loadGlyph) (hl : s.parser.layer = none) (hstage : s.parser.glyphFits = true)
    (hq : ∀ c ∈ s.queue, c.state = .opened) (v : Byte) : (s.bodyByte .loadGlyph v).Good := by
  have hbody (p : Parser) (hps : p.state = .body) (hpo : p.order = some .loadGlyph) (hpl : p.layer = none)
      (hpg : p.glyphFits = true) : ({ s with parser := p } : State).Good := h.withParser hw (.glyph hps hpo hpl hpg hq)
  unfold Parser.glyphFits at hstage
  cases hi : s.parser.glyphStage.index with
  | none =>
    obtain ⟨hr, hrows⟩ : s.parser.remaining = some 10 ∧ s.parser.glyphStage.rows = [] := by simpa [hi] using hstage
    simp only [State.bodyByte, hi, hr]
    refine State.goodGoesOn (fun _ => hbody _ hs hor hl ?_) nofun
    simp [Parser.glyphFits, hrows]
  | some i =>
    obtain ⟨hr, hlen⟩ : s.parser.remaining = some (9 - s.parser.glyphStage.rows.length) ∧
        s.parser.glyphStage.rows.length ≤ 8 := by simpa [hi] using hstage
    simp only [State.bodyByte, hi, hr]
    refine State.goodGoesOn (fun hn => hbody _ hs hor hl ?_) fun hn => ?_
    · simp only [Option.getD_some] at hn
      simp [Parser.glyphFits]
      omega
    · simp only [Option.getD_some] at hn
      have hnine : (s.parser.glyphStage.rows ++ [v]).length = 9 := by
        rw [List.length_append, List.length_singleton]
        omega
      rw [State.finishRecord_loadGlyph]
      exact State.Good.finishGlyph (h.cleared _) hnine

theorem State.Good.bodyByte (h : s.Good) (hw : s.mode.working = true) {o : RecordOrder} (hs : s.parser.state = .body)
    (hor : s.parser.order = some o) (v : Byte) : (s.bodyByte o v).Good := by
  cases h.parser with
  | idle state | place state | drain state => exact absurd (hs.symm.trans state) nofun
  | print _ order _ prints =>
    cases hor.symm.trans order
    exact h.bodyByte_print hw hs hor prints v
  | form _ order layer drained rest =>
    cases hor.symm.trans order
    exact h.bodyByte_form hw hs hor layer drained rest v
  | codes _ order layer =>
    cases hor.symm.trans order
    exact h.bodyByte_codes hw hs hor layer v
  | glyph _ order layer stage drained =>
    cases hor.symm.trans order
    exact h.bodyByte_glyph hw hs hor layer stage drained v

theorem State.Good.takeData (h : s.Good) (hw : s.mode.working = true) (v : Byte) : (s.takeData v).Good := by
  unfold State.takeData
  split
  next hs hor => exact h.bodyByte hw hs hor v
  next => exact h.raise .orderError

/-! ## The orders -/

theorem State.Good.enterBody_print (h : s.Good) (hw : s.mode.working = true) {o : RecordOrder} (ho : isPrint o = true)
    (hfit : orderFits o = true) (hopen : ∃ c ∈ s.queue, c.state = .opened) : (s.enterBody o).Good :=
  h.withParser hw (.print (b := .fresh s.straps.effective) rfl rfl (if_pos ho) ho hfit (by simp [LayerBuild.fresh]) hopen)

/-- A line order acts on the OPEN composite (R10, R11, R12). -/
theorem State.Good.takeLine (h : s.clearParser.Good) (hw : s.mode.working = true) {o : RecordOrder} (hfit : orderFits o = true)
    (hopen : ∃ c ∈ s.queue, c.state = .opened) : (s.takeLine o).Good := by
  unfold State.takeLine
  split
  next ho => exact State.Good.enterBody_print (s := s.clearParser) h hw ho hfit hopen
  next =>
    unfold orderFits at hfit
    cases ha : lineAction o with
    | none => exact h
    | some a =>
      rw [ha] at hfit
      exact State.Good.closeOpen (s := s.clearParser) h rfl hfit

/-- A line order begins its record, or waits for a place (R7). -/
theorem State.Good.lineOrder (h : s.clearParser.Good) (hw : s.mode.working = true) {o : RecordOrder} (hl : isLineOrder o = true)
    (hfit : orderFits o = true) : (s.lineOrder o).Good := by
  unfold State.lineOrder
  split
  next hopen => exact h.takeLine hw hfit (s.hasOpen_iff.1 hopen)
  next hopen =>
    have hnone := s.hasOpen_eq_false_iff.1 (by simpa using hopen)
    split
    next hlen =>
      have hcreated := State.Good.createComposite (s := s.clearParser) h hw rfl hlen hnone
      exact State.Good.takeLine (s := s.createComposite) hcreated hw hfit ⟨{ seq := s.counter }, by simp, rfl⟩
    next => exact State.Good.withParser (s := s.clearParser) h hw (.place rfl rfl rfl hl hfit hnone)

/-- A load order at rest finds no composite but an OPEN one, and no motion (R111, R112). -/
theorem State.Good.enterBody_load (h : s.clearParser.Good) (hw : s.mode.working = true) {o : RecordOrder}
    (ho : o = .loadForm ∨ o = .loadGlyph) (hd : s.drained = true) : (s.enterBody o).Good := by
  obtain ⟨hq, hm⟩ := s.drained_iff.1 hd
  have hopened : ∀ c ∈ s.queue, c.state = .opened := by
    rcases hq with hq | ⟨c, hq, hc⟩
    · simp [hq]
    · simpa [hq] using hc
  refine State.Good.withParser (s := s.clearParser) h hw ?_
  rcases ho with rfl | rfl
  · exact .form rfl rfl rfl hopened hm
  · exact .glyph rfl rfl rfl rfl hopened

theorem State.Good.drainOrder (h : s.clearParser.Good) (hw : s.mode.working = true) {o : RecordOrder}
    (ho : o = .loadForm ∨ o = .loadGlyph) : (s.drainOrder o).Good := by
  unfold State.drainOrder
  split
  next hd => exact h.enterBody_load hw ho hd
  next => exact State.Good.withParser (s := s.clearParser) h hw (.drain rfl rfl rfl ho)

/-- An order in IDLE begins its record (R101). -/
theorem State.Good.startRecord (h : s.Good) (hw : s.mode.working = true) (hi : s.parser.state = .idle) {o : RecordOrder}
    (hfit : orderFits o = true) : (s.startRecord o).Good := by
  have hidle (p : Parser) (hs : p.state = s.parser.state) (ho : p.order = s.parser.order) (hl : p.layer = s.parser.layer) :
      ({ s with parser := p } : State).Good := by
    cases h.idle hi s.queue s.motion with
    | idle state order layer => exact h.withParser hw (.idle (hs.trans state) (ho.trans order) (hl.trans layer))
    | place state | drain state | print state | form state | codes state | glyph state =>
      exact absurd (hi.symm.trans state) nofun
  cases o with
  | printSpace | printSkip | moveSpace | moveSkip => exact h.clearParser.lineOrder hw rfl hfit
  | loadForm => exact h.clearParser.drainOrder hw (.inl rfl)
  | loadGlyph => exact h.clearParser.drainOrder hw (.inr rfl)
  | loadCodes => exact h.withParser hw (.codes rfl rfl rfl)
  | checkBlank | checkBlock => exact hidle _ rfl rfl rfl

/-- The order of an order byte has its operand in R170's range. -/
theorem orderFits_of_decode {v : Byte} {o : RecordOrder} (h : decodeRecordOrder v = some o) : orderFits o = true := by
  have hspace (k : Nat) (hk : k ≤ 3) : orderFits (.printSpace k) = true := by
    by_cases h0 : k = 0
    · simp [orderFits, lineAction, h0]
    · simp [orderFits, lineAction, h0, Action.fits]
      omega
  unfold decodeRecordOrder at h
  dsimp only at h
  split at h
  · cases h
    exact hspace _ (by omega)
  · split at h
    · cases h
      simp [orderFits, lineAction, Action.fits]
      omega
    · split at h
      · cases h
        simp [orderFits, lineAction, Action.fits]
        omega
      · split at h
        · cases h
          simp [orderFits, lineAction, Action.fits]
          omega
        · grind [orderFits, lineAction]

/-- A PRINT order in hand is in range, and a layer in hand has W cells (R98, R170). -/
theorem ParserFacts.inHand {w : Nat} {q : List Composite} {m : Option Motion} {p : Parser} (h : ParserFacts w q m p) :
    (∀ o, p.order = some o → isPrint o = true → orderFits o = true) ∧ ∀ b, p.layer = some b → b.cells.length = w := by
  cases h with
  | idle _ order layer => simp [order, layer]
  | place _ order layer _ fits => simp [order, layer, fits]
  | drain _ order layer load => rcases load with rfl | rfl <;> simp [order, layer, isPrint]
  | print _ order layer _ fits wide => simp [order, layer, fits, wide]
  | form _ order layer | codes _ order layer | glyph _ order layer => simp [order, layer, isPrint]

/-- A record ended short leaves a sound station with an IDLE parser (R116). -/
theorem State.Good.endShort (h : s.Good) : s.endShort.Good ∧ s.endShort.parser.state = .idle := by
  obtain ⟨hfit, hwide⟩ := h.parser.inHand
  unfold State.endShort
  split
  next o ho =>
    split
    next hp => exact ⟨h.clearParser.finishPrint (hfit o ho hp) hwide true, rfl⟩
    next => exact ⟨((h.raise .shortRecord).raise .loadRejected).clearParser, rfl⟩
  next => exact ⟨h.clearParser, rfl⟩

/-- What an order byte begins in IDLE (R101, R117). -/
theorem State.Good.begins (h : s.Good) (hw : s.mode.working = true) (hi : s.parser.state = .idle) (v : Byte) :
    (s.begins (decodeRecordOrder v)).Good := by
  cases ho : decodeRecordOrder v with
  | some o => exact h.startRecord hw hi (orderFits_of_decode ho)
  | none => exact h.raise .orderError

theorem State.takeOrder_of_idle {s : State} (v : Byte) (hi : s.parser.state = .idle) :
    s.takeOrder v = s.begins (decodeRecordOrder v) := by
  unfold State.takeOrder
  rw [hi]
  cases decodeRecordOrder v <;> rfl

theorem State.Good.takeOrder (h : s.Good) (hw : s.mode.working = true) (v : Byte) (ht : s.parser.state ≠ .awaitPlace) :
    (s.takeOrder v).Good := by
  have hrecord (hs : s.parser.state = .body ∨ s.parser.state = .awaitDrain) : (s.takeOrder v).Good := by
    obtain ⟨hgood, hidle⟩ := h.endShort
    rw [State.takeOrder_inRecord v hs]
    exact hgood.begins (by rw [s.endShort_parserFrame]; exact hw) hidle v
  cases hs : s.parser.state with
  | idle =>
    rw [State.takeOrder_of_idle v hs]
    exact h.begins hw hs v
  | body => exact hrecord (.inl hs)
  | awaitDrain => exact hrecord (.inr hs)
  | awaitPlace => exact absurd hs ht

/-! ## The input buffer -/

theorem State.Good.takeByte (h : s.Good) (hw : s.mode.working = true) (b : PortByte) (ht : s.parser.takes b = true) :
    (s.takeByte b).Good := by
  have hs : s.parser.state ≠ .awaitPlace := fun e => by simp [Parser.takes, e] at ht
  unfold State.takeByte
  split
  · exact h.takeOrder hw _ hs
  · exact h.takeData hw _

theorem State.takeByte_parserFrame (s : State) (b : PortByte) : s.parserFrame (s.takeByte b) := by
  unfold State.takeByte
  split
  · exact s.takeOrder_parserFrame _
  · exact s.takeData_parserFrame _

/-- The parser with bytes that wait: induction on how many it may take (R99, R155). -/
theorem State.Good.runParser (h : s.Good) (hw : s.mode.working = true) (n : Nat) : (s.runParser n).Good := by
  induction n generalizing s with
  | zero => exact h
  | succ n ih =>
    cases hb : s.inputBuffer with
    | nil => rwa [State.runParser_waits _ (by simp [hb])]
    | cons b rest =>
      cases ht : s.parser.takes b with
      | false => rwa [State.runParser_waits _ (by simp [hb, ht])]
      | true =>
        have hrest : ({ s with inputBuffer := rest } : State).Good :=
          { h with idleInput := fun hn => absurd (hw.symm.trans hn) nofun }
        rw [State.runParser_taken n hb ht]
        refine ih (hrest.takeByte hw b ht) ?_
        rw [State.takeByte_parserFrame]
        exact hw

theorem State.Good.parse (h : s.Good) (hw : s.mode.working = true) : s.parse.Good := h.runParser hw _

end Updates

end Sys2Proof.Machine
end

section
/-! The paper motion, the stops, the faults and the removals keep a station sound (R17 to R22, R43 to R65, R131, R141 to R144). -/

namespace Sys2Proof.Machine

/-! ## The parser record while the queue or the motion changes -/

/-- The parser record fits another queue that has an OPEN composite exactly if the old one has, and none but OPEN ones if the old one
has; and a motion that did not start in the body of a LOAD FORM (R7, R73, R96). -/
theorem ParserFacts.move {w : Nat} {q q' : List Composite} {m m' : Option Motion} {p : Parser} (h : ParserFacts w q m p)
    (hopen : (∃ c ∈ q', c.state = .opened) ↔ ∃ c ∈ q, c.state = .opened)
    (hall : (∀ c ∈ q, c.state = .opened) → ∀ c ∈ q', c.state = .opened)
    (hm : p.state = .body → p.order = some .loadForm → (∀ c ∈ q, c.state = .opened) → m = none → m' = none) :
    ParserFacts w q' m' p := by
  cases h with
  | idle state order layer => exact .idle state order layer
  | place state order layer line fits unopened =>
    exact .place state order layer line fits fun c hc hs => by
      obtain ⟨d, hd, hds⟩ := hopen.1 ⟨c, hc, hs⟩
      exact unopened d hd hds
  | drain state order layer load => exact .drain state order layer load
  | print state order layer prints fits wide opened => exact .print state order layer prints fits wide (hopen.2 opened)
  | form state order layer drained rest => exact .form state order layer (hall drained) (hm state order drained rest)
  | codes state order layer => exact .codes state order layer
  | glyph state order layer stage drained => exact .glyph state order layer stage (hall drained)

theorem ParserFacts.withMotion {w : Nat} {q : List Composite} {m m' : Option Motion} {p : Parser} (h : ParserFacts w q m p)
    (hm : m = none → m' = none) : ParserFacts w q m' p := h.move .rfl id fun _ _ _ => hm

section Replace
variable {w : Nat} {pre post : List Composite} {x x' : Composite} {m m' : Option Motion} {p : Parser}

/-- A composite that is not OPEN is replaced by another. -/
theorem ParserFacts.replace (h : ParserFacts w (pre ++ x :: post) m p) (hx : x.state ≠ .opened) (hx' : x'.state ≠ .opened) :
    ParserFacts w (pre ++ x' :: post) m' p := by
  refine h.move ?_ (fun hall => absurd (hall x (by simp)) hx) fun _ _ hall => absurd (hall x (by simp)) hx
  simp [hx, hx', or_and_right, exists_or]

theorem ParserFacts.updateFirst {q : List Composite} (h : ParserFacts w q m p) {c : Composite → Bool} {f : Composite → Composite}
    (hc : ∀ x, c x = true → x.state ≠ .opened) (hf : ∀ x, c x = true → (f x).state ≠ .opened) :
    ParserFacts w (Machine.updateFirst c f q) m p := by
  obtain ⟨-, e⟩ | ⟨pre, x, post, rfl, -, hx, e⟩ := updateFirst_cases c f q <;> rw [e]
  · exact h
  · exact h.replace (hc x hx) (hf x hx)

end Replace

/-! ## Changes of the motion record -/

/-- Two motion records that differ in the times of their row and their frame timer alone. -/
structure Motion.Alike (m m' : Motion) : Prop where
  feed : m'.feed = m.feed
  distance : m'.distance = m.distance
  steps : m'.steps = m.steps
  firing : m'.firing = m.firing
  row : m'.row = .none ↔ m.row = .none
  timer : m'.timer = .stopped ↔ m.timer = .stopped

theorem Motion.cut_alike (now : Micros) (m : Motion) : m.Alike (m.cut now) :=
  ⟨rfl, rfl, rfl, rfl, Row.cut_eq_none now m.row, FrameTimer.hold_eq_stopped now m.timer⟩

theorem Motion.resume_alike (now : Micros) (m : Motion) : m.Alike (m.resume now) :=
  ⟨rfl, rfl, rfl, rfl, Row.resume_eq_none now m.row, FrameTimer.resume_eq_stopped now m.timer⟩

section Alike
variable {m m' : Motion}

theorem Motion.Alike.fits (h : m.Alike m') (hf : m.Fits) : m'.Fits where
  far := h.distance ▸ hf.far
  near := h.distance ▸ hf.near
  within := by rw [h.steps, h.distance]; exact hf.within
  rowed := fun hr => by rw [h.firing, h.steps]; exact hf.rowed fun e => hr (h.row.2 e)
  timed := by rw [h.timer, h.steps, h.distance]; exact hf.timed

theorem Motion.Alike.prints (h : m.Alike m') {c : Composite} (hp : m.Prints c) : m'.Prints c where
  printing := hp.printing
  layered := h.firing ▸ hp.layered
  unstepped := by rw [h.steps, h.firing]; exact hp.unstepped
  imaged := by rw [h.firing, h.steps, h.row]; exact hp.imaged

theorem PrintsOf.alike {q : List Composite} (h : PrintsOf q (some m)) (ha : m.Alike m') : PrintsOf q (some m') := by
  unfold PrintsOf at h ⊢
  rcases h with ⟨hfeed, hfire, hq⟩ | ⟨hfeed, c, rest, hq, hc⟩
  · exact .inl ⟨ha.feed.trans hfeed, ha.firing.trans hfire, hq⟩
  · exact .inr ⟨ha.feed.trans hfeed, c, rest, hq, ha.prints hc⟩

/-- A motion record in the plan's hands. -/
theorem PlanOf.inv {n : Nat} {p : Option Plan} (h : PlanOf n (some m) p) :
    ∃ x, p = some x ∧ m.Fits ∧ x.distance = m.distance ∧ x.landing < n := by
  cases p with
  | none => exact h.elim
  | some x => exact ⟨x, rfl, h⟩

theorem PlanOf.ofNone {n : Nat} {p : Option Plan} (h : PlanOf n none p) : p = none := by
  cases p with
  | none => rfl
  | some x => exact h.elim

/-- The plan stays with a motion record of the same distance. -/
theorem PlanOf.moved {n : Nat} {p : Option Plan} (h : PlanOf n (some m) p) (hf : m'.Fits) (hd : m'.distance = m.distance) :
    PlanOf n (some m') p := by
  obtain ⟨x, rfl, -, hx, hl⟩ := h.inv
  exact ⟨hf, hx.trans hd.symm, hl⟩

end Alike

section Paper
variable {s : State} {m m' : Motion}

theorem State.Good.fits (h : s.Good) (hm : s.motion = some m) : m.Fits := by
  have hp := h.plan
  rw [hm] at hp
  obtain ⟨-, -, hf, -⟩ := hp.inv
  exact hf

/-- A motion is in progress in the working modes alone, and not in HELD (R127, R130). -/
theorem State.Good.working_of_motion (h : s.Good) (hm : s.motion = some m) : s.mode.working = true ∧ s.mode ≠ .held := by
  refine ⟨?_, fun hh => ?_⟩
  · by_contra hn
    cases hm.symm.trans (h.idleMotion (by simpa using hn))
  · cases hm.symm.trans (h.heldMotion hh)

/-- The motion record advances: what the facts ask of the new one. -/
theorem State.Good.withMotion (h : s.Good) (hm : s.motion = some m) (hd : m'.distance = m.distance) (hf : m'.Fits)
    (hsteps : m.steps ≤ m'.steps) (hp : PrintsOf s.queue (some m'))
    (hcut : s.faultLow = true → (∀ t, m'.row ≠ .firing t) ∧ ∀ t, m'.timer ≠ .running t) :
    ({ s with motion := some m' } : State).Good := by
  obtain ⟨hw, hh⟩ := h.working_of_motion hm
  have hplan := h.plan
  rw [hm] at hplan
  exact { h with
    prints := hp
    plan := hplan.moved hf hd
    cutMotion := fun hl _ hx => by cases hx; exact hcut hl
    pends := fun hs => by
      obtain ⟨x, hx, h1⟩ := h.pends hs
      cases hm.symm.trans hx
      exact ⟨m', rfl, h1.trans hsteps⟩
    drive := .inr nofun
    idleMotion := fun hn => absurd (hw.symm.trans hn) nofun
    heldMotion := fun hx => absurd hx hh
    parser := h.parser.withMotion fun hx => by cases hm.symm.trans hx }

theorem State.Good.alike (h : s.Good) (hm : s.motion = some m) (ha : m.Alike m')
    (hcut : s.faultLow = true → (∀ t, m'.row ≠ .firing t) ∧ ∀ t, m'.timer ≠ .running t) :
    ({ s with motion := some m' } : State).Good :=
  h.withMotion hm ha.distance (ha.fits (h.fits hm)) ha.steps.ge ((hm ▸ h.prints).alike ha) hcut

/-! ## Faults -/

/-- A station that becomes faulted (R142, R143, R144). -/
theorem State.Good.cutoff (h : s.Good) : s.cutoff.Good := by
  cases hm : s.motion with
  | none =>
    rw [State.cutoff_of_boundary hm]
    exact { h with
      ownFault := fun _ => rfl
      cutDrive := fun _ => rfl
      cutMotion := fun _ x hx => by cases hm.symm.trans hx
      drive := .inl rfl }
  | some m =>
    have hcut : (∀ t, (m.cut s.clock).row ≠ .firing t) ∧ ∀ t, (m.cut s.clock).timer ≠ .running t :=
      ⟨fun t => Row.cut_ne_firing _ t _, fun t => FrameTimer.hold_ne_running _ t _⟩
    have hgood := h.alike hm (m.cut_alike s.clock) fun _ => hcut
    rw [State.cutoff, hm]
    exact { hgood with
      ownFault := fun _ => rfl
      cutDrive := fun _ => rfl
      cutMotion := fun _ x hx => by cases hx; exact hcut
      drive := .inl rfl }

theorem State.Good.recordFault (h : s.Good) (hs : s.mode ≠ .starting) (f : FaultKind) : (s.recordFault f).Good :=
  { h.cutoff with
    ownFault := fun _ => rfl
    startingClear := fun hx => absurd hx hs }

theorem Mode.ne_starting_of_working {m : Mode} (h : m.working = true) : m ≠ .starting := by
  rintro rfl
  cases h

/-- Clearing BLOCKED (R3). -/
theorem State.Good.unblock (h : s.Good) : ({ s with queue := Machine.unblock s.queue } : State).Good := by
  have hmem {P : Composite → Prop} (hP : ∀ c : Composite, ∀ x : CompFlags, P { c with flags := x } ↔ P c) :
      (∀ c ∈ Machine.unblock s.queue, P c) ↔ ∀ c ∈ s.queue, P c := by simp [Machine.unblock, hP]
  have hprints : PrintsOf (Machine.unblock s.queue) s.motion := by
    have hold := h.prints
    cases hm : s.motion with
    | none => rw [hm] at hold; exact (hmem fun _ _ => .rfl).2 hold
    | some m =>
      rw [hm] at hold
      rcases hold with ⟨hfeed, hfire, hq⟩ | ⟨hfeed, c, rest, hq, hc⟩
      · exact .inl ⟨hfeed, hfire, (hmem fun _ _ => .rfl).2 hq⟩
      · exact .inr ⟨hfeed, { c with flags := { c.flags with blocked := false } }, Machine.unblock rest, by rw [hq]; rfl,
          { hc with }⟩
  exact { h with
    queue := h.queue.unblock
    prints := hprints
    idleQueue := fun hn => by rw [h.idleQueue hn]; rfl
    parser := h.parser.move (by simp [Machine.unblock]) (hmem fun _ _ => .rfl).2 fun _ _ _ => id }

/-- The removal of faults: FAULT stays as it is (R141, R143). -/
theorem State.Good.removeFaults (h : s.Good) (p : FaultKind → Bool) : (s.removeFaults p).Good := by
  have hfaults {t : State} (g : t.Good) : ({ t with faults := t.faults.filter fun f => !p f } : State).Good :=
    { g with
      ownFault := fun hne => g.ownFault fun e => hne (by rw [e]; rfl)
      startingClear := fun hs => by rw [g.startingClear hs]; rfl }
  unfold State.removeFaults
  split
  · exact hfaults h.unblock
  · exact hfaults h

end Paper

section Paper
variable {s : State} {m m' : Motion}

/-! ## The start of a motion -/

/-- The carriage action of a composite moves 1 to 144 lines (R1, R32 to R34). -/
theorem FormImage.linesMoved_bounds {f : FormImage} (n : Nat) {a : Action} (hf : 1 ≤ f.length ∧ f.length ≤ 144)
    (ha : a.fits = true) : 1 ≤ f.linesMoved n a ∧ f.linesMoved n a ≤ 144 := by
  cases a with
  | space k =>
    have hk : 1 ≤ k ∧ k ≤ 3 := by simpa [Action.fits] using ha
    exact ⟨hk.1, by rw [FormImage.linesMoved_space]; omega⟩
  | skip c =>
    obtain ⟨h1, hL⟩ := f.linesMoved_skip_bounds n c hf.1
    exact ⟨h1, hL.trans hf.2⟩

/-- The motion record and the plan of a new motion (R31, R36, R43, R46). -/
theorem PlanOf.ofPlanFor {f : FormImage} (hf : 1 ≤ f.length ∧ f.length ≤ 144) (n : Nat) (latch feed firing : Bool) {a : Action}
    (ha : a.fits = true) :
    PlanOf f.length (some { feed := feed, distance := (f.planFor n latch a).distance, firing := firing })
      (some (f.planFor n latch a)) := by
  obtain ⟨h1, h144⟩ := f.linesMoved_bounds n hf ha
  obtain ⟨h9, hmax⟩ := f.planFor_distance_bounds n latch a h1 h144
  have hpos : (0 : Nat) ≠ (f.planFor n latch a).distance := by omega
  exact ⟨⟨h9, hmax, Nat.zero_le _, fun h => absurd rfl h, iff_of_true rfl hpos⟩, rfl, Nat.mod_lt _ hf.1⟩

/-- A motion starts at a station with none that is not faulted, in a mode that prints or feeds; the motion record fits the queue with
which it starts (R44, R46, R61). -/
theorem State.Good.beginMotion (h : s.Good) (hm : s.motion = none) (hw : s.mode.working = true) (hh : s.mode ≠ .held)
    (hf : s.faulted = false) {a : Action} (ha : a.fits = true) {feed firing : Bool} {q : List Composite}
    (hq : QueueFacts s.straps.effective q s.counter s.bufA.holder s.bufB.holder s.render)
    (hp : ∀ d, PrintsOf q (some { feed := feed, distance := d, firing := firing }))
    (hparser : ∀ x, ParserFacts s.straps.effective q (some x) s.parser) :
    (({ s with queue := q } : State).beginMotion feed firing a).Good := by
  obtain ⟨-, hlow⟩ := s.faulted_eq_false_iff.1 hf
  exact { h with
    queue := hq
    prints := hp _
    plan := PlanOf.ofPlanFor h.form s.line s.overflow feed firing ha
    cutDrive := fun hl => absurd (hl.symm.trans hlow) nofun
    cutMotion := fun hl => absurd (hl.symm.trans hlow) nofun
    pends := fun hs => by
      obtain ⟨x, hx, -⟩ := h.pends hs
      cases hm.symm.trans hx
    drive := .inl rfl
    idleQueue := fun hn => absurd (hw.symm.trans hn) nofun
    idleMotion := fun hn => absurd (hw.symm.trans hn) nofun
    heldMotion := fun hx => absurd hx hh
    parser := hparser _ }

/-- The oldest READY composite prints, with its buffer if it has a layer (R17, R44, R46). -/
theorem State.Good.startMotion (h : s.Good) : s.startMotion.Good := by
  obtain e | ⟨c, rest, a, hm, hf, ho, -, hq, hc, ha, ⟨-, e⟩ | ⟨-, e⟩⟩ := s.startMotion_cases <;> rw [e]
  · exact h
  · exact h.recordFault (by rw [ho]; nofun) .dataCheck
  · have hqueue := h.queue
    have hparser := h.parser
    rw [hq] at hqueue hparser
    have hsits := hqueue.sits c List.mem_cons_self
    have hnext : QueueFacts s.straps.effective ({ c with state := .printing } :: rest) s.counter s.bufA.holder s.bufB.holder
        s.render := by
      refine hqueue.replace_still (pre := []) rfl rfl ?_ nofun (fun _ => rfl) (by rw [hc]; nofun) nofun
      exact { hsits with
        acted := by simp [ha]
        bare := fun hl => ⟨nofun, nofun, (hsits.bare hl).2.2⟩
        unbuffered := by simp
        buffered := by simp }
    refine h.beginMotion hm (by rw [ho]; rfl) (by rw [ho]; nofun) hf (hsits.inRange a ha) hnext (fun d => .inr ⟨rfl, _, rest, rfl, ?_⟩)
      fun x => hparser.replace (pre := []) (by rw [hc]; nofun) nofun
    refine ⟨rfl, fun hl => by simpa using hl, fun _ => by simp, fun hl => .inr ?_⟩
    exact hsits.buffered (.inr hc) (by simpa using hl)

/-! ## The end of a motion -/

/-- The pending stops gone, and the motion with what it printed: the station at its boundary before the stops apply (R40, R56, R59,
R65). -/
theorem State.Good.abandonMotion (h : s.Good) (hm : s.motion = some m) : ({ s.abandonMotion with stops := {} } : State).Good := by
  have hplan : PlanOf s.form.length none none := trivial
  obtain ⟨hw, -⟩ := h.working_of_motion hm
  have hprints := h.prints
  rw [hm] at hprints
  rw [State.abandonMotion_of_motion hm]
  rcases hprints with ⟨hfeed, -, hq⟩ | ⟨hfeed, c, rest, hq, hc⟩
  · rw [hfeed]
    exact { h with
      prints := hq
      plan := hplan
      cutDrive := fun _ => rfl
      cutMotion := nofun
      pends := nofun
      drive := .inl rfl
      idleMotion := fun _ => rfl
      heldMotion := fun _ => rfl
      parser := h.parser.withMotion fun _ => rfl }
  · have hqueue := h.queue
    have hparser := h.parser
    rw [hq] at hqueue hparser
    have hopen : c.state ≠ .opened := by rw [hc.printing]; nofun
    have hdeparted := hqueue.depart (by rw [hc.printing]; nofun)
    simp only [hfeed, State.departOldest, hq, Bool.false_eq_true, if_false]
    exact { h with
      queue := by
        show QueueFacts _ _ _ (s.bufA.freeOf c.seq).holder (s.bufB.freeOf c.seq).holder _
        rw [ImageBuffer.freeOf_holder, ImageBuffer.freeOf_holder]
        exact hdeparted
      prints := fun x hx => hqueue.oldest x hx
      plan := hplan
      cutDrive := fun _ => rfl
      cutMotion := nofun
      pends := nofun
      drive := .inl rfl
      idleQueue := fun hn => absurd (hw.symm.trans hn) nofun
      idleMotion := fun _ => rfl
      heldMotion := fun _ => rfl
      parser := hparser.move (by simp [hopen]) (fun hall => absurd (hall c (by simp)) hopen)
        fun _ _ hall => absurd (hall c (by simp)) hopen }

/-- A motion at s = 0 is withdrawn: its composite is READY again, with its buffer (R59). -/
theorem State.Good.withdraw (h : s.Good) (hm : s.motion = some m) (h0 : m.steps = 0) : s.withdraw.Good := by
  have hplan : PlanOf s.form.length none none := trivial
  obtain ⟨hw, -⟩ := h.working_of_motion hm
  have hpends : s.stops.any = true → ∃ x, (none : Option Motion) = some x ∧ 1 ≤ x.steps := fun hs => by
    obtain ⟨x, hx, h1⟩ := h.pends hs
    cases hm.symm.trans hx
    omega
  have hprints := h.prints
  rw [hm] at hprints
  rw [State.withdraw_of_motion hm]
  rcases hprints with ⟨hfeed, -, hq⟩ | ⟨hfeed, c, rest, hq, hc⟩
  · rw [hfeed]
    exact { h with
      prints := hq
      plan := hplan
      cutDrive := fun _ => rfl
      cutMotion := nofun
      pends := hpends
      drive := .inl rfl
      idleMotion := fun _ => rfl
      heldMotion := fun _ => rfl
      parser := h.parser.withMotion fun _ => rfl }
  · have hqueue := h.queue
    have hparser := h.parser
    rw [hq] at hqueue hparser
    have hsits := hqueue.sits c List.mem_cons_self
    have hbuffer (hl : c.layers ≠ []) : c.buffer ≠ none :=
      (hc.imaged ((hc.unstepped h0).2 hl)).resolve_left fun hn => by omega
    have hacted : c.action ≠ none := fun ha => by cases hc.printing.symm.trans (hsits.acted.1 ha)
    simp only [hfeed, hq, Bool.false_eq_true, if_false]
    exact { h with
      queue := hqueue.replace_still (pre := []) rfl rfl
        { hsits with
          acted := by simp [hacted]
          bare := fun hl => ⟨nofun, nofun, (hsits.bare hl).2.2⟩
          unbuffered := by simp
          buffered := fun _ => hbuffer } nofun nofun (by rw [hc.printing]; nofun) nofun
      prints := by
        simp only [PrintsOf, List.mem_cons, or_imp, forall_and, forall_eq]
        exact ⟨nofun, hqueue.oldest⟩
      plan := hplan
      cutDrive := fun _ => rfl
      cutMotion := nofun
      pends := hpends
      drive := .inl rfl
      idleQueue := fun hn => absurd (hw.symm.trans hn) nofun
      idleMotion := fun _ => rfl
      heldMotion := fun _ => rfl
      parser := hparser.replace (pre := []) (by rw [hc.printing]; nofun) nofun }

end Paper

section Paper
variable {s : State} {m m' : Motion}

/-! ## The stops -/

/-- The station changes among its working modes; in HELD there is no motion (R127, R130). -/
theorem State.Good.withMode (h : s.Good) (hw : s.mode.working = true) {x : Mode} (hx : x.working = true)
    (hh : x = .held → s.motion = none) : ({ s with mode := x } : State).Good :=
  { h with
    resetMode := fun hr => absurd (h.resetMode hr) (Mode.ne_starting_of_working hw)
    startingClear := fun hs => absurd hs (Mode.ne_starting_of_working hx)
    idleQueue := fun hn => absurd (hx.symm.trans hn) nofun
    idleMotion := fun hn => absurd (hx.symm.trans hn) nofun
    idleInput := fun hn => absurd (hx.symm.trans hn) nofun
    idleParser := fun hn => absurd (hx.symm.trans hn) nofun
    heldMotion := hh
    startTimed := fun ht => absurd (h.startTimed ht).1 (Mode.ne_starting_of_working hw)
    formTimed := fun ht => by
      rw [h.formTimed ht] at hw
      cases hw }

/-- Fewer stops pend (R58, R134, R135). -/
theorem State.Good.withStops (h : s.Good) {x : StopSet} (hx : x.any = true → s.stops.any = true) :
    ({ s with stops := x } : State).Good :=
  { h with pends := fun hs => h.pends (hx hs) }

theorem State.Good.withoutStops (h : s.Good) : ({ s with stops := {} } : State).Good := h.withStops nofun

/-- The pending stops apply at a boundary (R58). -/
theorem State.Good.applyStops (h : ({ s with stops := {} } : State).Good) (hw : s.mode.working = true) (hm : s.motion = none) :
    s.applyStops.Good := by
  have hmode : (if s.stops.kstop then .stopped else if s.stops.hold || s.stops.discard then .held else s.mode).working = true := by
    split
    · rfl
    · split
      · rfl
      · exact hw
  have hgood := h.withMode hw hmode fun _ => hm
  rw [State.applyStops_eq]
  dsimp only
  split
  · exact hgood.recordFault (Mode.ne_starting_of_working hmode) .paperOut
  · exact hgood

theorem State.Good.addStop (h : s.Good) (hw : s.mode.working = true) (t : Stop) : (s.addStop t).Good := by
  obtain ⟨hm, e⟩ | ⟨m, hm, h0, e⟩ | ⟨m, hm, h1, e⟩ := s.addStop_cases t <;> rw [e]
  · exact State.Good.applyStops h.withoutStops hw hm
  · rw [State.withdraw_with_stops]
    refine State.Good.applyStops (h.withdraw hm h0).withoutStops ?_ ?_
    · show s.withdraw.mode.working = true
      rw [State.withdraw_mode]
      exact hw
    · rw [State.withdraw_of_motion hm]
      rfl
  · exact { h with pends := fun _ => ⟨m, hm, h1⟩ }

/-- The conclusion of a motion applies the plan to what its abandonment leaves (R39, R56, R65). -/
theorem State.conclude_eq_abandon {p : Plan} (hm : s.motion = some m) (hp : s.plan = some p) :
    s.conclude =
      ({ s.abandonMotion with
        line := p.landing, formCount := s.formCount + BitVec.ofNat 16 p.increase, overflow := p.overflow } : State).applyStops := by
  rw [State.conclude_of_motion hm, State.abandonMotion_of_motion hm, State.applyPlan_of_plan hp]
  cases m.feed with
  | true => rfl
  | false => cases hq : s.queue <;> simp [State.departOldest, hq, State.dropMotion]

theorem State.abandonMotion_mode (s : State) : s.abandonMotion.mode = s.mode := by
  obtain hm | ⟨m, hm⟩ := Option.eq_none_or_eq_some s.motion
  · rw [State.abandonMotion_of_boundary hm]
  · rw [State.abandonMotion_of_motion hm]
    obtain ⟨-, e⟩ | ⟨_, _, -, e⟩ := s.departOldest_cases <;> cases m.feed <;> simp [e]

theorem State.abandonMotion_motion (s : State) : s.abandonMotion.motion = none := by
  obtain hm | ⟨m, hm⟩ := Option.eq_none_or_eq_some s.motion
  · rw [State.abandonMotion_of_boundary hm, hm]
  · rw [State.abandonMotion_of_motion hm]
    rfl

theorem State.abandonMotion_form (s : State) : s.abandonMotion.form = s.form := by
  obtain hm | ⟨m, hm⟩ := Option.eq_none_or_eq_some s.motion
  · rw [State.abandonMotion_of_boundary hm]
  · rw [State.abandonMotion_of_motion hm]
    obtain ⟨-, e⟩ | ⟨_, _, -, e⟩ := s.departOldest_cases <;> cases m.feed <;> simp [e]

theorem State.Good.conclude (h : s.Good) : s.conclude.Good := by
  cases hm : s.motion with
  | none =>
    unfold State.conclude
    rw [hm]
    exact h
  | some m =>
    have hplan := h.plan
    rw [hm] at hplan
    obtain ⟨p, hp, -, -, hl⟩ := hplan.inv
    have hdropped := h.abandonMotion hm
    rw [State.conclude_eq_abandon hm hp]
    refine State.Good.applyStops { hdropped with line := ?_ } ?_ s.abandonMotion_motion
    · show p.landing < s.abandonMotion.form.length
      rw [s.abandonMotion_form]
      exact hl
    · show s.abandonMotion.mode.working = true
      rw [s.abandonMotion_mode]
      exact (h.working_of_motion hm).1

/-! ## Abandonment and removal -/

theorem State.Good.abandonInput (h : s.Good) : s.abandonInput.Good :=
  { h.clearParser with idleInput := fun _ => rfl }

/-- The station with nothing queued, whose motion record is that of a FEED, or gone (R19, R20). -/
theorem State.Good.emptied (h : s.Good) (hi : s.parser.state = .idle) (hp : PrintsOf [] s.motion) : s.emptied.Good :=
  { h with
    queue := .empty _ _
    prints := hp
    idleQueue := fun _ => rfl
    parser := h.idle hi _ _ }

/-- The line whose motion has stepped is kept alone as sequence 127, with its buffer or without (R19, R20, R62, R63). -/
theorem State.Good.keptLine {c' : Composite} {a b : ImageBuffer} (h : s.Good)
    (hi : s.parser.state = .idle) (hm : s.motion = some m) (hc : c'.state = .printing)
    (hs : c'.Sits s.straps.effective) (h127 : c'.seq = 127)
    (hheld : ∀ buf, heldBy a.holder b.holder buf = if c'.buffer = some buf then some 127 else none)
    (hd : m'.distance = m.distance) (hf : m'.Fits) (hsteps : m.steps ≤ m'.steps) (hfeed : m'.feed = false) (hp : m'.Prints c')
    (hcut : s.faultLow = true → (∀ t, m'.row ≠ .firing t) ∧ ∀ t, m'.timer ≠ .running t) :
    ({ s with counter := 0, render := none, queue := [c'], bufA := a, bufB := b, motion := some m' } : State).Good := by
  obtain ⟨hw, hh⟩ := h.working_of_motion hm
  have hplan := h.plan
  rw [hm] at hplan
  exact { h with
    queue := .alone hs hc (by rw [h127]; rfl) fun buf => by rw [h127]; exact hheld buf
    prints := .inr ⟨hfeed, c', [], rfl, hp⟩
    plan := hplan.moved hf hd
    cutMotion := fun hl x hx => by cases hx; exact hcut hl
    pends := fun hx => by
      obtain ⟨y, hy, h1⟩ := h.pends hx
      cases hm.symm.trans hy
      exact ⟨m', rfl, h1.trans hsteps⟩
    drive := .inr nofun
    idleQueue := fun hn => absurd (hw.symm.trans hn) nofun
    idleMotion := fun hn => absurd (hw.symm.trans hn) nofun
    heldMotion := fun hx => absurd hx hh
    parser := h.idle hi _ _ }

/-- The removal of the composites, with the parser IDLE (R19, R20). -/
theorem State.Good.removeComposites (h : s.Good) (hi : s.parser.state = .idle) (fires : Bool) :
    (s.removeComposites fires).Good := by
  have hprints := h.prints
  obtain ⟨hm, e⟩ | ⟨m, hm, h0, e⟩ | ⟨m, hm, h1, hfeed, e⟩ | ⟨m, c, rest, hm, h1, hfeed, hq, e⟩ := s.removeComposites_cases fires <;>
    rw [e]
  · exact h.emptied hi (by rw [hm]; exact nofun)
  · have hwithdrawn := h.withdraw hm h0
    rw [State.withdraw_of_motion hm] at hwithdrawn
    exact hwithdrawn.emptied hi nofun
  · refine h.emptied hi ?_
    rw [hm] at hprints ⊢
    rcases hprints with ⟨hf, hfire, -⟩ | ⟨hf, c, rest, hq, -⟩
    · exact .inl ⟨hf, hfire, nofun⟩
    · rcases hfeed with hfeed | hfeed
      · cases hf.symm.trans hfeed
      · cases hfeed.symm.trans hq
  · have hqueue := h.queue
    rw [hm] at hprints
    rw [hq] at hqueue hprints
    rcases hprints with ⟨hf, -⟩ | ⟨-, c', rest', hcons, hc⟩
    · cases hfeed.symm.trans hf
    cases hcons
    have hsits := hqueue.sits c List.mem_cons_self
    have hnamed := hqueue.named c List.mem_cons_self
    have hcut := fun hl => h.cutMotion hl m hm
    have hfits := h.fits hm
    cases fires with
    | true =>
      have hkept := h.keptLine (c' := { c with seq := 127 })
        (a := { s.bufA with holder := if s.bufA.holder = some c.seq then some 127 else none })
        (b := { s.bufB with holder := if s.bufB.holder = some c.seq then some 127 else none })
        hi hm hc.printing { hsits with } rfl (fun buf => ?_) rfl hfits le_rfl hfeed { hc with } hcut
      · rw [← hm] at hkept
        exact hkept
      · simp only [hnamed]
        cases buf <;> rfl
    | false =>
      have hfits' : ({ m with firing := false, row := .none } : Motion).Fits := { hfits with rowed := fun hr => absurd rfl hr }
      refine h.keptLine (c' := { c with seq := 127, buffer := none }) (a := s.bufA.free) (b := s.bufB.free) hi hm hc.printing
        ?_ rfl (fun buf => by cases buf <;> rfl) rfl hfits' le_rfl hfeed ?_ fun hl => ⟨nofun, (hcut hl).2⟩
      · exact { hsits with
          bare := fun hl => ⟨(hsits.bare hl).1, (hsits.bare hl).2.1, rfl⟩
          unbuffered := fun _ => rfl
          buffered := by rintro (hs | hs) <;> cases hc.printing.symm.trans hs }
      · exact ⟨hc.printing, nofun, fun h0 => absurd h0 (Nat.ne_of_gt h1), nofun⟩

/-- What is abandoned of the input is none of the composites. -/
theorem State.abandonInput_removeComposites (s : State) (fires : Bool) :
    (s.removeComposites fires).abandonInput = s.abandonInput.removeComposites fires := by
  unfold State.removeComposites
  have hm : s.abandonInput.motion = s.motion := rfl
  have hq : s.abandonInput.queue = s.queue := rfl
  rw [hm, hq]
  cases s.motion with
  | none => rfl
  | some m =>
    dsimp only
    split
    · rfl
    · split
      · rfl
      · cases s.queue with
        | nil => rfl
        | cons c rest => cases fires <;> rfl

theorem State.Good.removed (h : s.Good) (fires : Bool) : (s.removeComposites fires).abandonInput.Good := by
  rw [State.abandonInput_removeComposites]
  exact h.abandonInput.removeComposites rfl fires

/-- A broken bar leaves nothing in hand, and FORMING (R21, R64, R138). -/
theorem State.Good.breakBar (h : s.Good) (hw : s.mode.working = true) : s.breakBar.Good := by
  have hdropped : s.barDropped.Good :=
    { h with
      queue := .empty _ _
      prints := nofun
      plan := trivial
      cutDrive := fun _ => rfl
      cutMotion := nofun
      pends := nofun
      drive := .inl rfl
      resetMode := fun hr => absurd (h.resetMode hr) (Mode.ne_starting_of_working hw)
      startingClear := nofun
      idleQueue := fun _ => rfl
      idleMotion := fun _ => rfl
      idleInput := fun _ => rfl
      idleParser := fun _ => rfl
      heldMotion := nofun
      startTimed := fun ht => absurd (h.startTimed ht).1 (Mode.ne_starting_of_working hw)
      formTimed := fun ht => absurd rfl ht
      parser := .idle rfl rfl rfl }
  rw [State.breakBar_eq]
  split
  · exact (hdropped.recordFault nofun _).recordFault nofun _
  · exact hdropped.recordFault nofun _

end Paper

end Sys2Proof.Machine
end

section
/-! The steps due keep a station sound (R8, R44, R69, R112, R140), and the buffers that a render and a motion leave. -/

namespace Sys2Proof.Machine

section Due
variable {s : State}

/-- A parser with a record in hand is that of a working mode (R98, R127). -/
theorem State.Good.working_of_parser (h : s.Good) (hs : s.parser.state ≠ .idle) : s.mode.working = true := by
  by_contra hn
  exact hs (h.idleParser (by simpa using hn))

theorem State.Good.grantPlace (h : s.Good) : s.grantPlace.Good := by
  obtain e | ⟨o, hs, ho, hl, -, e⟩ := s.grantPlace_cases <;> rw [e]
  · exact h
  · have hw := h.working_of_parser (by rw [hs]; nofun)
    have hfit : orderFits o = true := by
      cases h.parser with
      | place _ order _ _ fits => cases ho.symm.trans order; exact fits
      | idle state | drain state | print state | form state | codes state | glyph state => cases hs.symm.trans state
    exact (h.clearParser.lineOrder hw hl hfit).parse (by rw [s.lineOrder_parserFrame o]; exact hw)

theorem State.Good.endDrain (h : s.Good) : s.endDrain.Good := by
  obtain e | ⟨o, hs, ho, hd, e⟩ := s.endDrain_cases <;> rw [e]
  · exact h
  · have hw := h.working_of_parser (by rw [hs]; nofun)
    have hload : o = .loadForm ∨ o = .loadGlyph := by
      cases h.parser with
      | drain _ order _ load => cases ho.symm.trans order; exact load
      | idle state | place state | print state | form state | codes state | glyph state => cases hs.symm.trans state
    exact (h.clearParser.enterBody_load hw hload hd).parse hw

/-- The free buffer has no holder (R69). -/
theorem State.heldBy_freeBuffer {buf : Buf} (h : s.freeBuffer = some buf) : heldBy s.bufA.holder s.bufB.holder buf = none := by
  unfold State.freeBuffer at h
  split at h
  next hA => cases h; exact Option.isNone_iff_eq_none.1 hA
  next =>
    split at h
    next hB => cases h; exact Option.isNone_iff_eq_none.1 hB
    next => cases h

theorem State.Good.startRender (h : s.Good) : s.startRender.Good := by
  obtain e | ⟨buf, c, hr, hbuf, hfind, e⟩ := s.startRender_cases <;> rw [e]
  · exact h
  · obtain ⟨hnone, -⟩ | ⟨pre, x, post, hq, hpre, hx, hnext⟩ := updateFirst_cases (fun x : Composite => x.state == .closed)
      (fun x => { x with state := .rendering, buffer := some buf }) s.queue
    · rw [List.find?_eq_none.2 fun y hy => by simp [hnone y hy]] at hfind
      cases hfind
    · rw [hq, find?_append_first hpre hx] at hfind
      cases hfind
      have hclosed : c.state = .closed := beq_iff_eq.1 hx
      have hqueue := h.queue
      rw [hq, hr] at hqueue
      refine { h with queue := ?_, prints := ?_, idleQueue := ?_, parser := ?_ }
      · rw [hnext]
        exact hqueue.startRender hclosed (State.heldBy_freeBuffer hbuf) fun k => by cases buf <;> cases k <;> rfl
      · exact h.prints.updateFirst (fun c hc => by rw [beq_iff_eq.1 hc]; nofun) fun _ _ => nofun
      · intro hn
        rw [h.idleQueue hn]
        rfl
      · exact h.parser.updateFirst (fun c hc => by rw [beq_iff_eq.1 hc]; nofun) fun _ _ => nofun

/-- Catching up leaves a sound station (logs 5 and 11). -/
theorem State.Good.catchUp (h : s.Good) : s.catchUp.Good :=
  have hreleased : s.releaseKeys.Good := { h with }
  { hreleased.grantPlace.endDrain.startRender.startMotion with }

/-! ## The buffers -/

/-- The render in flight completes (R71, R72). -/
theorem State.Good.completeRender (h : s.Good) (r : RenderRecord) : (s.completeRender r).Good := by
  have hqueue := h.queue.completeRender
  refine { h with queue := ?_, prints := ?_, idleQueue := ?_, parser := ?_ }
  · unfold State.completeRender
    cases r.buffer <;> exact hqueue
  · exact h.prints.updateFirst (fun c hc => by rw [beq_iff_eq.1 hc]; nofun) fun _ _ => nofun
  · intro hn
    show updateFirst _ _ s.queue = []
    rw [h.idleQueue hn]
    rfl
  · exact h.parser.updateFirst (fun c hc => by rw [beq_iff_eq.1 hc]; nofun) fun _ _ => nofun

/-- The end of row 8 frees the buffer of the printing composite (R75). -/
theorem State.Good.freeOldestBuffer {m : Motion} (h : s.Good) (hm : s.motion = some m) (hf : m.firing = true)
    (h9 : 9 ≤ m.steps) (hr : m.row = .none) : s.freeOldestBuffer.Good := by
  obtain ⟨-, e⟩ | ⟨c, rest, hq, e⟩ := s.freeOldestBuffer_cases <;> rw [e]
  · exact h
  · obtain ⟨hw, -⟩ := h.working_of_motion hm
    have hqueue := h.queue
    have hprints := h.prints
    have hparser := h.parser
    rw [hq] at hqueue hprints hparser
    rw [hm] at hprints
    rcases hprints with ⟨-, hfire, -⟩ | ⟨hfeed, c', rest', hcons, hc⟩
    · cases hf.symm.trans hfire
    cases hcons
    refine { h with queue := ?_, prints := ?_, idleQueue := ?_, parser := ?_ }
    · show QueueFacts _ _ _ (s.bufA.freeOf c.seq).holder (s.bufB.freeOf c.seq).holder _
      rw [ImageBuffer.freeOf_holder, ImageBuffer.freeOf_holder]
      exact hqueue.release hc.printing
    · rw [hm]
      exact .inr ⟨hfeed, _, rest, rfl, { hc with imaged := fun _ => .inl ⟨h9, hr⟩ }⟩
    · exact fun hn => absurd (hw.symm.trans hn) nofun
    · exact hparser.replace (pre := []) (by rw [hc.printing]; nofun) (by rw [hc.printing]; nofun)

end Due
end Sys2Proof.Machine
end

section
/-! Every command keeps a station sound (R1 to R170). Settles O6 and O7. -/

namespace Sys2Proof.Machine

/-! ## The port and the control orders -/

section Port
variable {s : State}

theorem State.Good.receive (h : s.Good) (hw : s.mode.working = true) (b : PortByte) : (s.receive b).Good := by
  unfold State.receive
  split
  · have hjoined : ({ s with inputBuffer := s.inputBuffer ++ [b] } : State).Good :=
      { h with idleInput := fun hn => absurd (hw.symm.trans hn) nofun }
    exact hjoined.parse hw
  · exact h.recordFault (Mode.ne_starting_of_working hw) .inputOverrun

theorem State.Good.writeRise (h : s.Good) : s.writeRise.Good := by
  unfold State.writeRise
  split
  · exact { h with sense := nofun }
  · exact { h with }

theorem State.Good.strobeRecord (h : s.Good) (b : PortByte) : (s.strobeRecord b).Good := by
  unfold State.strobeRecord
  split
  next ht => exact h.writeRise.receive (Bool.and_eq_true_iff.1 ht).2 b
  next => exact h.writeRise

theorem State.Good.holdOrder (h : s.Good) (hw : s.mode.working = true) : s.holdOrder.Good := by
  unfold State.holdOrder
  split
  · exact h.addStop hw .hold
  · exact h

theorem State.removed_mode (s : State) (fires : Bool) : (s.removeComposites fires).abandonInput.mode = s.mode := by
  show (s.removeComposites fires).mode = s.mode
  obtain ⟨-, e⟩ | ⟨_, -, -, e⟩ | ⟨_, -, -, -, e⟩ | ⟨_, _, _, -, -, -, -, e⟩ := s.removeComposites_cases fires <;> rw [e]
  · rfl
  · cases fires <;> rfl

theorem State.Good.discardOrder (h : s.Good) (hw : s.mode.working = true) : s.discardOrder.Good := by
  have hremoved := (h.removed false).removeFaults discardClears
  unfold State.discardOrder
  dsimp only
  split
  · refine hremoved.addStop ?_ .discard
    rw [State.removeFaults_mode, State.removed_mode]
    exact hw
  · exact hremoved

/-- RESUME, KSTART and PINIT remove faults, cancel stops and move among the working modes, but never to HELD (R134, R135, R139). -/
theorem State.Good.releases (h : s.Good) (hw : s.mode.working = true) {x : StopSet} (hx : x.any = true → s.stops.any = true)
    {a b : Mode} (hb : b.working = true) (hb' : b ≠ .held) :
    ({ s with stops := x, mode := if s.mode = a then b else s.mode } : State).Good := by
  refine (h.withStops hx).withMode hw ?_ ?_
  · split
    · exact hb
    · exact hw
  · split
    · exact fun e => absurd e hb'
    · exact h.heldMotion

theorem State.Good.resumeOrder (h : s.Good) (hw : s.mode.working = true) : s.resumeOrder.Good :=
  (h.removeFaults _).releases hw (fun hx => by simp [StopSet.any] at hx ⊢; tauto) rfl nofun

theorem State.Good.startKey (h : s.Good) (hw : s.mode.working = true) : s.startKey.Good :=
  (h.removeFaults _).releases hw (fun hx => by simp [StopSet.any] at hx ⊢; tauto) rfl nofun

theorem State.Good.portReset (h : s.Good) (hw : s.mode.working = true) : s.portReset.Good := by
  have hremoved := (h.removed true).removeFaults s.inputs.pinitClears
  have hw' : ((s.removeComposites true).abandonInput.removeFaults s.inputs.pinitClears).mode.working = true := by
    rw [State.removeFaults_mode, State.removed_mode]
    exact hw
  exact { hremoved.releases (x := {}) (a := .held) (b := .online) hw' nofun rfl nofun with sense := nofun }

theorem State.Good.senseOrder (h : s.Good) : s.senseOrder.Good :=
  { h with sense := fun r hr => by cases hr; exact Nat.zero_le 8 }

theorem State.Good.strobeControl (h : s.Good) {forming acts : State → State} (hf : ∀ t : State, t.Good → (forming t).Good)
    (ha : ∀ t : State, t.Good → t.mode.working = true → (acts t).Good) : (strobeControl forming acts s).Good := by
  unfold Machine.strobeControl
  dsimp only
  split
  · split
    next hw => exact ha _ h.catchUp.writeRise hw
    next => exact hf _ h.catchUp.writeRise
  · exact h.catchUp.writeRise

theorem State.Good.controlStrobe (h : s.Good) (c : ControlOrder) : (controlStrobe c s).Good := by
  cases c with
  | hold => exact h.strobeControl (fun _ => id) fun _ g => g.holdOrder
  | discard => exact h.strobeControl (fun _ g => g.removeFaults _) fun _ g => g.discardOrder
  | resume => exact h.strobeControl (fun _ => id) fun _ g => g.resumeOrder
  | sense => exact h.strobeControl (fun _ g => g.senseOrder) fun _ g _ => g.senseOrder

theorem State.Good.strobeOrder (h : s.Good) (v : Byte) : (strobeOrder v s).Good := by
  unfold Machine.strobeOrder
  split
  · exact h.controlStrobe _
  · exact h.catchUp.strobeRecord _

end Port

/-! ## The motion's commands -/

section Motion
variable {s : State} {m : Motion}

/-- A step of a stepping station (R49, R55). -/
theorem Motion.Fits.takeStep (h : m.Fits) (now : Micros) (low : Bool) (he : m.steps ≠ m.distance) :
    (m.takeStep now low).Fits where
  far := h.far
  near := h.near
  within := Nat.lt_of_le_of_ne h.within he
  rowed := by
    unfold Motion.takeStep
    dsimp only
    split
    next hr =>
      obtain ⟨hf, h9⟩ : m.firing = true ∧ m.steps + 1 ≤ 9 := by simpa using hr
      exact fun _ => ⟨hf, Nat.succ_pos _, h9⟩
    next => exact fun hr => absurd rfl hr
  timed := by
    unfold Motion.takeStep
    dsimp only
    split
    next hd => exact iff_of_false (by split <;> nofun) (by simpa using hd)
    next hd => exact iff_of_true (h.timed.2 he) hd

theorem Motion.Prints.takeStep {c : Composite} (h : m.Prints c) (now : Micros) (low : Bool) : (m.takeStep now low).Prints c where
  printing := h.printing
  layered := h.layered
  unstepped := nofun
  imaged := fun hf => by
    exact (h.imaged hf).imp_left fun hx => ⟨Nat.le_succ_of_le hx.1, Motion.takeStep_row_of_past (.inr hx.1)⟩

theorem State.Good.takeStep (h : s.Good) (hm : s.motion = some m) (he : m.steps ≠ m.distance) :
    ({ s with
      motion := some (m.takeStep s.clock s.faultLow)
      stepRecord := some { time := s.clock, pulse := false }
      stepDrive := if s.faulted then .held else .pulse } : State).Good := by
  have hprints := h.prints
  rw [hm] at hprints
  have hnext : PrintsOf s.queue (some (m.takeStep s.clock s.faultLow)) := by
    rcases hprints with ⟨hfeed, hfire, hq⟩ | ⟨hfeed, c, rest, hq, hc⟩
    · exact .inl ⟨hfeed, hfire, hq⟩
    · exact .inr ⟨hfeed, c, rest, hq, hc.takeStep _ _⟩
  have hcut (hl : s.faultLow = true) : (∀ t, (m.takeStep s.clock s.faultLow).row ≠ .firing t) ∧
      ∀ t, (m.takeStep s.clock s.faultLow).timer ≠ .running t := by
    obtain ⟨-, ht⟩ := h.cutMotion hl m hm
    unfold Motion.takeStep
    rw [hl]
    dsimp only
    refine ⟨fun t => by split <;> nofun, ?_⟩
    split
    · exact fun t => nofun
    · exact ht
  have hgood := h.withMotion (m' := m.takeStep s.clock s.faultLow) hm rfl ((h.fits hm).takeStep s.clock s.faultLow he) (Nat.le_succ _) hnext hcut
  exact { hgood with
    cutDrive := fun hl => by rw [if_pos (s.faulted_iff.2 (.inr hl))]
    drive := .inr nofun }

/-- The fire pulse of a DUE row begins (R51). -/
theorem State.Good.firePulseStart {x : Micros} (h : s.Good) (hm : s.motion = some m) (hr : m.row = .due x)
    (hf : s.faulted = false) (now : Micros) : ({ s with motion := some { m with row := .firing now } } : State).Good := by
  obtain ⟨-, hl⟩ := s.faulted_eq_false_iff.1 hf
  exact h.alike hm ⟨rfl, rfl, rfl, rfl, by simp [hr], .rfl⟩ fun hx => absurd (hx.symm.trans hl) nofun

/-- The fire pulse of a FIRING row ends (R52). -/
theorem State.Good.firePulseEnd {x : Micros} (h : s.Good) (hm : s.motion = some m) (hr : m.row = .firing x) :
    ({ s with motion := some { m with row := .none } } : State).Good := by
  have hprints := h.prints
  rw [hm] at hprints
  have hfits := h.fits hm
  refine h.withMotion hm rfl { hfits with rowed := fun hx => absurd rfl hx } le_rfl ?_ fun hl => ⟨nofun, (h.cutMotion hl m hm).2⟩
  rcases hprints with ⟨hfeed, hfire, hq⟩ | ⟨hfeed, c, rest, hq, hc⟩
  · exact .inl ⟨hfeed, hfire, hq⟩
  · refine .inr ⟨hfeed, c, rest, hq, { hc with imaged := fun hf => .inr ((hc.imaged hf).resolve_left ?_) }⟩
    rw [hr]
    exact fun hx => absurd hx.2 nofun

/-- The frame timer expires (R57). -/
theorem State.Good.timerExpires {x : Micros} (h : s.Good) (hm : s.motion = some m) (ht : m.timer = .running x) :
    ({ s with motion := some { m with timer := .expired } } : State).Good :=
  h.alike hm ⟨rfl, rfl, rfl, rfl, .rfl, by simp [ht]⟩ fun hl => ⟨(h.cutMotion hl m hm).1, nofun⟩

/-- The station ceases to be faulted (R53, R57, R143). -/
theorem State.Good.faultEnds (h : s.Good) (hf : s.faults = []) :
    ({ s with faultLow := false, motion := s.motion.map fun m => m.resume s.clock } : State).Good := by
  have hrisen : ({ s with faultLow := false } : State).Good :=
    { h with
      ownFault := fun hne => absurd hf hne
      cutDrive := nofun
      cutMotion := nofun }
  cases hm : s.motion with
  | none =>
    rw [Option.map_none, ← hm]
    exact hrisen
  | some m => exact hrisen.alike hm (m.resume_alike s.clock) nofun

end Motion

/-! ## The commands -/

/-- The outcome is no next state, or a sound one. -/
def GoesToGood (o : Host.Outcome State Fault Refusal) : Prop := ∀ t, o = .next t → t.Good

theorem GoesToGood.next {t : State} (h : t.Good) : GoesToGood (.next t) := by
  rintro _ ⟨⟩
  exact h

theorem GoesToGood.ite {c : Prop} [Decidable c] {o o' : Host.Outcome State Fault Refusal} (h : c → GoesToGood o)
    (g : ¬c → GoesToGood o') : GoesToGood (if c then o else o') := by
  split
  next hc => exact h hc
  next hc => exact g hc

theorem State.Good.ite {c : Prop} [Decidable c] {s t : State} (h : c → s.Good) (g : ¬c → t.Good) : (if c then s else t).Good := by
  split
  next hc => exact h hc
  next hc => exact g hc

section Commands
variable {s : State}

theorem execArbitrationRead_good (h : s.catchUp.Good) (p : Peers) : GoesToGood (execArbitrationRead p s) := by
  unfold execArbitrationRead
  generalize s.catchUp = u at h ⊢
  dsimp only
  split
  · refine .ite (fun _ => .next ?_) fun _ => .next { h with }
    exact { h with sense := fun x hx => by cases hx; exact (by decide : 1 ≤ 8) }
  · exact .next { h with }

theorem execSenseRecordRead_good (h : s.catchUp.Good) : GoesToGood (execSenseRecordRead s) := by
  unfold execSenseRecordRead
  generalize s.catchUp = u at h ⊢
  dsimp only
  split
  next r hr =>
    refine .ite (fun _ => .next ?_) fun _ => .next { h with }
    have hread : ({ u.readOver with
        senseRead := some { r with index := if r.index < 8 then r.index + 1 else 8 } } : State).Good :=
      { h with sense := fun x hx => by cases hx; dsimp only; split <;> omega }
    exact .ite (fun _ => { hread with }) fun _ => hread
  next => exact .next { h with }

theorem execPinit_good (h : s.catchUp.Good) (lowFor : Micros) : GoesToGood (execPinit lowFor s) := by
  refine .next (.ite (fun hc => ?_) fun _ => { h with })
  exact State.Good.portReset { h with } hc.2.1

/-- The reset state is sound (R23, R66, R81). -/
theorem State.reset_good : State.reset.Good where
  queue := .empty _ _
  prints := nofun
  plan := trivial
  form := ⟨by decide, by decide⟩
  line := by decide
  ownFault := fun h => absurd rfl h
  cutDrive := nofun
  cutMotion := nofun
  pends := nofun
  drive := .inl rfl
  resetMode := fun _ => rfl
  startingClear := fun _ => rfl
  idleQueue := fun _ => rfl
  idleMotion := fun _ => rfl
  idleInput := fun _ => rfl
  idleParser := fun _ => rfl
  heldMotion := nofun
  startTimed := fun h => absurd rfl h
  formTimed := fun h => absurd rfl h
  parser := .idle rfl rfl rfl
  glyphs := by
    intro g hg
    rw [List.eq_of_mem_replicate hg]
    rfl
  sense := nofun
  straps := by decide

theorem State.fullyReset_good (s : State) : s.fullyReset.Good :=
  { State.reset_good with
    ownFault := fun h => absurd rfl h
    cutDrive := fun _ => rfl
    cutMotion := nofun }

/-- The straps are sampled at a station that holds nothing (R122, R123). -/
theorem execResetRelease_good (h : s.catchUp.Good) (pins : StrapPins) : GoesToGood (execResetRelease pins s) := by
  unfold execResetRelease
  generalize s.catchUp = u at h ⊢
  refine .ite (fun hr => .next ?_) fun _ => .next h
  have hstarting := h.resetMode hr
  have hidle : u.mode.working = false := by rw [hstarting]; rfl
  obtain ⟨h1, h192⟩ := clampColumn_bounds pins.fcol
  obtain ⟨h8, h32⟩ := clampWidth_bounds pins.wid
  have hqueue := h.queue
  have hparser := h.idle (h.idleParser hidle) u.queue u.motion
  have hempty := h.idleQueue hidle
  rw [hempty] at hqueue
  exact { h with
    queue := by
      rw [hempty]
      exact { hqueue with sits := nofun }
    resetMode := nofun
    startingClear := fun _ => h.startingClear hstarting
    idleQueue := fun _ => hempty
    idleMotion := fun _ => h.idleMotion hidle
    idleInput := fun _ => h.idleInput hidle
    idleParser := fun _ => h.idleParser hidle
    heldMotion := nofun
    startTimed := fun _ => ⟨rfl, rfl⟩
    formTimed := fun hf => by cases hstarting.symm.trans (h.formTimed hf)
    parser := by
      cases hparser with
      | idle state order layer => exact .idle state order layer
      | place state | drain state | print state | form state | codes state | glyph state =>
        cases (h.idleParser hidle).symm.trans state
    straps := ⟨h1, h192, h8, h32⟩ }

theorem execStartIntervalExpiry_good (h : s.catchUp.Good) : GoesToGood (execStartIntervalExpiry s) := by
  unfold execStartIntervalExpiry
  generalize s.catchUp = u at h ⊢
  dsimp only
  split
  next t0 ht =>
    obtain ⟨hstarting, hreset⟩ := h.startTimed (by rw [ht]; nofun)
    have hidle : u.mode.working = false := by rw [hstarting]; rfl
    exact .next { h with
      resetMode := fun hr => absurd (hr.symm.trans hreset) nofun
      startingClear := nofun
      idleQueue := fun _ => h.idleQueue hidle
      idleMotion := fun _ => h.idleMotion hidle
      idleInput := fun _ => h.idleInput hidle
      idleParser := fun _ => h.idleParser hidle
      heldMotion := nofun
      startTimed := fun hx => absurd rfl hx
      formTimed := fun _ => rfl }
  next => exact .next h

theorem State.Good.readSensors (h : s.Good) (hw : s.mode.working = true) : s.readSensors.Good := by
  have hcover : (if s.inputs.coverClosed then s else s.recordFault .coverOpen).Good :=
    .ite (fun _ => h) fun _ => h.recordFault (Mode.ne_starting_of_working hw) _
  refine .ite (fun _ => hcover) fun _ => hcover.addStop ?_ _
  split
  · exact hw
  · exact hw

theorem execFormingIntervalExpiry_good (h : s.catchUp.Good) : GoesToGood (execFormingIntervalExpiry s) := by
  unfold execFormingIntervalExpiry
  generalize s.catchUp = u at h ⊢
  dsimp only
  split
  next t0 ht =>
    have hforming := h.formTimed (by rw [ht]; nofun)
    refine .next (State.Good.readSensors ?_ rfl)
    exact { h with
      resetMode := fun hr => by cases hforming.symm.trans (h.resetMode hr)
      startingClear := nofun
      idleQueue := nofun
      idleMotion := nofun
      idleInput := nofun
      idleParser := nofun
      heldMotion := nofun
      startTimed := fun hx => by cases hforming.symm.trans (h.startTimed hx).1
      formTimed := fun hx => absurd rfl hx }
  next => exact .next h

theorem execJoinRise_good (h : s.catchUp.Good) : GoesToGood (execJoinRise s) := by
  unfold execJoinRise
  generalize s.catchUp = u at h ⊢
  refine .ite (fun _ => .next h) fun _ => .next { h with formTimed := ?_ }
  dsimp only
  split
  next hf => exact fun _ => hf
  next => exact h.formTimed

theorem execJoinFall_good (h : s.catchUp.Good) : GoesToGood (execJoinFall s) := by
  unfold execJoinFall
  generalize s.catchUp = u at h ⊢
  have hfallen : ({ u with inputs := { u.inputs with joinHigh := false } } : State).Good := { h with }
  refine .ite (fun _ => .next h) fun _ => .ite (fun hw => .next (hfallen.breakBar hw)) fun _ => .ite (fun _ => .next ?_)
    fun _ => .next hfallen
  exact { hfallen with formTimed := fun hx => absurd rfl hx }

theorem execStep_good (h : s.catchUp.Good) : GoesToGood (execStep s) := by
  unfold execStep
  generalize s.catchUp = u at h ⊢
  refine .ite (fun _ => .next h) fun hs => ?_
  obtain ⟨-, hs⟩ := not_or.1 hs
  split
  next m hm =>
    refine .ite (fun _ => .next (h.recordFault hs _)) fun he => .next (h.takeStep hm ?_)
    exact m.atEnd_eq_false_iff.1 (by simpa using he)
  next => exact .next (h.recordFault hs _)

theorem execStepPulseEnd_good (h : s.catchUp.Good) : GoesToGood (execStepPulseEnd s) := by
  unfold execStepPulseEnd
  generalize s.catchUp = u at h ⊢
  dsimp only
  split
  · exact .next { h with
      cutDrive := fun _ => rfl
      drive := .inl rfl }
  · exact .next h

theorem execStepRelease_good (h : s.catchUp.Good) : GoesToGood (execStepRelease s) := by
  unfold execStepRelease
  generalize s.catchUp = u at h ⊢
  refine .next (.ite (fun hr => ?_) fun _ => h)
  obtain ⟨hf, -, m, hm, -⟩ := u.mayRelease_iff.1 hr
  obtain ⟨-, hl⟩ := u.faulted_eq_false_iff.1 hf
  exact { h with
    cutDrive := fun hx => absurd (hx.symm.trans hl) nofun
    drive := .inr fun hx => by cases hm.symm.trans hx }

theorem execFirePulseStart_good (h : s.catchUp.Good) : GoesToGood (execFirePulseStart s) := by
  unfold execFirePulseStart
  generalize s.catchUp = u at h ⊢
  dsimp only
  split
  next m hm =>
    split
    next x hr =>
      refine .ite (fun _ => .next h) fun hf => .next ?_
      exact { h.firePulseStart hm hr (by simpa using hf) _ with }
    next => exact .next h
  next => exact .next h

theorem execFirePulseEnd_good (h : s.catchUp.Good) : GoesToGood (execFirePulseEnd s) := by
  unfold execFirePulseEnd
  generalize s.catchUp = u at h ⊢
  dsimp only
  split
  next m hm =>
    split
    next x hr =>
      have hended : ({ u.waitUntil (x + u.straps.fireWidth) with
          motion := some { m with row := .none } } : State).Good := { h.firePulseEnd hm hr with }
      obtain ⟨hfire, -⟩ := (h.fits hm).rowed (by rw [hr]; nofun)
      exact .next (.ite (fun h9 => hended.freeOldestBuffer rfl hfire h9.ge rfl) fun _ => hended)
    next => exact .next h
  next => exact .next h

theorem execFrameHoldDelay_good (h : s.catchUp.Good) : GoesToGood (execFrameHoldDelay s) := by
  unfold execFrameHoldDelay
  generalize s.catchUp = u at h ⊢
  dsimp only
  split
  · exact .next { h with }
  · exact .next h

theorem execFrameTimerExpiry_good (h : s.catchUp.Good) : GoesToGood (execFrameTimerExpiry s) := by
  unfold execFrameTimerExpiry
  generalize s.catchUp = u at h ⊢
  dsimp only
  split
  next m hm =>
    split
    next x ht =>
      have hexpired : ({ u.waitUntil (x + Config.frameTimeout) with
          motion := some { m with timer := .expired } } : State).Good := { h.timerExpires hm ht with }
      exact .next (hexpired.recordFault (Mode.ne_starting_of_working (h.working_of_motion hm).1) _)
    next => exact .next h
  next => exact .next h

theorem execFaultRise_good (h : s.catchUp.Good) (b : Bool) : GoesToGood (execFaultRise b s) := by
  unfold execFaultRise
  generalize s.catchUp = u at h ⊢
  refine .ite (fun hc => .next ?_) fun _ => .next h
  have hended := h.faultEnds (List.isEmpty_iff.1 hc.1)
  exact .ite (fun _ => hended.conclude) fun _ => hended

theorem execFrameEvent_good (h : s.catchUp.Good) : GoesToGood (execFrameEvent s) :=
  .ite (fun _ => .next { h.conclude with }) fun _ => .next h

/-- A FEED starts (R61, R151). -/
theorem State.Good.startFeed (h : s.Good) (hf : s.feedAccepted = true) : (s.beginMotion true false (.skip 1)).Good := by
  obtain ⟨⟨⟨hs, hfault⟩, hm⟩, hform⟩ : ((s.mode = .stopped ∧ s.faulted = false) ∧ s.motion = none) ∧ s.takingForm = false := by
    simpa [State.feedAccepted] using hf
  have hprints := h.prints
  rw [hm] at hprints
  refine h.beginMotion hm (by rw [hs]; rfl) (by rw [hs]; nofun) hfault rfl h.queue (fun d => .inl ⟨rfl, rfl, hprints⟩) fun x => ?_
  refine h.parser.move .rfl id fun hst hor _ _ => ?_
  simp [State.takingForm, hst, hor] at hform

theorem execKfeed_good (h : s.catchUp.Good) : GoesToGood (execKfeed s) := by
  unfold execKfeed
  generalize s.catchUp = u at h ⊢
  have hpressed : ({ u with inputs := { u.inputs with kfeed := true } } : State).Good := { h with }
  exact .ite (fun _ => .next h) fun _ => .next (.ite (fun hf => hpressed.startFeed hf) fun _ => hpressed)

theorem State.Good.topOfForm (h : s.Good) : s.topOfForm.Good :=
  { h with line := h.form.1 }

/-- KTOF accepted: the motion abandoned, the top of the form, and the pending stops applied where there was a motion (R22, R41, R65,
R152). -/
theorem State.Good.goToTop (h : s.Good) :
    (if s.motion.isSome then (s.abandonMotion.topOfForm.removeFaults tofClears).applyStops
      else s.abandonMotion.topOfForm.removeFaults tofClears).Good := by
  cases hm : s.motion with
  | none =>
    rw [State.abandonMotion_of_boundary hm]
    exact h.topOfForm.removeFaults _
  | some m =>
    refine State.Good.applyStops ((h.abandonMotion hm).topOfForm.removeFaults tofClears) ?_ s.abandonMotion_motion
    show s.abandonMotion.mode.working = true
    rw [State.abandonMotion_mode]
    exact (h.working_of_motion hm).1

theorem execKtof_good (h : s.catchUp.Good) : GoesToGood (execKtof s) := by
  unfold execKtof
  generalize s.catchUp = u at h ⊢
  have hpressed : ({ u with inputs := { u.inputs with ktof := true } } : State).Good := { h with }
  exact .ite (fun _ => .next h) fun _ => .ite (fun _ => .next hpressed.goToTop) fun _ => .next hpressed

theorem State.Good.stopKey (h : s.Good) : s.stopKey.Good := by
  unfold State.stopKey
  split
  next hm => exact h.addStop (by rw [hm]; rfl) .kstop
  next hm => exact h.withMode (by rw [hm]; rfl) rfl nofun
  next hm =>
    unfold State.stopFeed
    split
    next m hmot => exact .ite (fun h0 => h.withdraw hmot h0) fun _ => h
    next => exact h
  next => exact h
  next => exact h

theorem execRenderCompletion_good (h : s.catchUp.Good) : GoesToGood (execRenderCompletion s) := by
  unfold execRenderCompletion
  generalize s.catchUp = u at h ⊢
  dsimp only
  split
  next r _ =>
    have hwaited : (u.waitUntil (r.start + r.duration)).Good := { h with }
    exact .next (hwaited.completeRender r)
  next => exact .next h

theorem execCoverOpen_good (h : s.catchUp.Good) : GoesToGood (execCoverOpen s) := by
  unfold execCoverOpen
  generalize s.catchUp = u at h ⊢
  have hopened : ({ u with inputs := { u.inputs with coverClosed := false } } : State).Good := { h with }
  exact .ite (fun _ => .next h) fun _ => .next (.ite (fun hw => hopened.recordFault (Mode.ne_starting_of_working hw) _)
    fun _ => hopened)

theorem execPaperAbsent_good (h : s.catchUp.Good) : GoesToGood (execPaperAbsent s) := by
  unfold execPaperAbsent
  generalize s.catchUp = u at h ⊢
  have habsent : ({ u with inputs := { u.inputs with paperPresent := false } } : State).Good := { h with }
  exact .ite (fun _ => .next h) fun _ => .next (.ite (fun hw => habsent.addStop hw _) fun _ => habsent)

theorem execKstart_good (h : s.catchUp.Good) : GoesToGood (execKstart s) := by
  unfold execKstart
  generalize s.catchUp = u at h ⊢
  have hpressed : ({ u with inputs := { u.inputs with kstart := true } } : State).Good := { h with }
  exact .ite (fun _ => .next h) fun _ => .next (.ite (fun hw => hpressed.startKey hw) fun _ => hpressed)

theorem execKstop_good (h : s.catchUp.Good) : GoesToGood (execKstop s) := by
  unfold execKstop
  generalize s.catchUp = u at h ⊢
  have hpressed : ({ u with inputs := { u.inputs with kstop := true } } : State).Good := { h with }
  exact .ite (fun _ => .next h) fun _ => .next hpressed.stopKey

/-- Every command leads a sound station to a sound one. -/
theorem exec_good (h : s.Good) (i : Instr) : GoesToGood (exec i s) := by
  have hc := h.catchUp
  cases i with
  | printSpace | printSkip | moveSpace | moveSkip | loadForm | loadCodes | loadGlyph | checkBlank | checkBlock
  | unknownOrder | hold | discard | resume | sense => exact .next (h.strobeOrder _)
  | dataByte => exact .next (hc.strobeRecord _)
  | pstrFall dir => cases dir <;> exact .next { hc with }
  | arbitrationRead p => exact execArbitrationRead_good hc p
  | senseRecordRead => exact execSenseRecordRead_good hc
  | pinitFall => exact .next { hc with }
  | fullReset =>
    rw [exec_fullReset]
    exact .next s.fullyReset_good
  | pinit lowFor => exact execPinit_good hc lowFor
  | startIntervalExpiry => exact execStartIntervalExpiry_good hc
  | formingIntervalExpiry => exact execFormingIntervalExpiry_good hc
  | resetRelease pins => exact execResetRelease_good hc pins
  | joinRise => exact execJoinRise_good hc
  | joinFall => exact execJoinFall_good hc
  | coverClosed | paperPresent => exact .ite (fun _ => .next hc) fun _ => .next { hc with }
  | coverOpen => exact execCoverOpen_good hc
  | paperAbsent => exact execPaperAbsent_good hc
  | kstart => exact execKstart_good hc
  | kstop => exact execKstop_good hc
  | kfeed => exact execKfeed_good hc
  | ktof => exact execKtof_good hc
  | faultFall => exact .next (.ite (fun _ => hc.cutoff) fun _ => hc)
  | faultRise b => exact execFaultRise_good hc b
  | step => exact execStep_good hc
  | frameEvent => exact execFrameEvent_good hc
  | stepPulseEnd => exact execStepPulseEnd_good hc
  | stepRelease => exact execStepRelease_good hc
  | firePulseStart => exact execFirePulseStart_good hc
  | firePulseEnd => exact execFirePulseEnd_good hc
  | frameHoldDelay => exact execFrameHoldDelay_good hc
  | frameTimerExpiry => exact execFrameTimerExpiry_good hc
  | renderCompletion => exact execRenderCompletion_good hc
  | motionStart => exact .next h.startMotion
  | renderStart => exact .next h.startRender
  | placeGrant => exact .next h.grantPlace
  | drainEnd => exact .next h.endDrain

end Commands

theorem step_good {s t : State} (h : s.Good) (hstep : step s = .next t) : t.Good := by
  cases hp : s.pending with
  | nil =>
    rw [step_of_none_waiting hp] at hstep
    cases hstep
    obtain e | ⟨-, -, e⟩ := s.catchUp.endStatusRead_cases
    · rw [State.tick, e]
      exact h.catchUp
    · rw [State.tick, e]
      exact { h.catchUp with }
  | cons c rest =>
    rw [step_of_front hp] at hstep
    have hrest : ({ s with pending := rest } : State).Good := { h with }
    exact exec_good hrest c t hstep

/-! ## The statements -/

/-- Settles O6: nothing is queued or in progress, and the stores have their sizes. -/
theorem soundAtReset : Obligations.SoundAtReset := by
  refine State.reset.sound_iff.2 ⟨State.reset_good, ⟨defaultCodeTable_length, ?_, rfl, rfl⟩, Nat.zero_le 2, ?_, ?_⟩
  · exact List.length_replicate
  · exact List.nodup_nil
  · exact List.nodup_singleton _

/-- Settles O7: each clause of the invariant is kept by every command; the sizes of the stores and the sets without repetition are
those of O8 and O10. -/
theorem stepsKeepSoundness : Obligations.StepsKeepSoundness := by
  intro s t hs hstep
  obtain ⟨hgood, hsized, hinput, hfaults, hwarnings⟩ := s.sound_iff.1 hs
  have hsizes := step_keepsSizes hstep
  obtain ⟨hfaults', hwarnings'⟩ := noKindIsHeldTwice s t hfaults hwarnings hstep
  exact t.sound_iff.2 ⟨step_good hgood hstep, hsizes.1 hsized, hsizes.2 hinput, hfaults', hwarnings'⟩

end Sys2Proof.Machine
end

section
/-! The values of full reset (R23, R26, R30, R66, R81, R83, R84, R121, R125, R141, R155, R161). Settles O4. -/

namespace Sys2Proof.Machine

/-- The default form carries channel 1 in line 0 and no other channel in any line (R26). -/
theorem FormImage.default_carries {l c : Nat} (hc : 1 ≤ c) : FormImage.default.carries l c = decide (l = 0 ∧ c = 1) := by
  have hbit : (1#12).getLsbD (c - 1) = decide (c = 1) := by
    rw [BitVec.getLsbD_one]
    have : c - 1 = 0 ↔ c = 1 := by omega
    simp [this]
  unfold FormImage.carries
  cases l with
  | zero =>
    have hline : FormImage.default.channels.getD 0 0 = 1#12 := rfl
    rw [hline, hbit]
    simp [hc]
  | succ l =>
    have hline : FormImage.default.channels.getD (l + 1) 0 = 0 := by
      show (List.replicate 65 (0#12)).getD l 0 = 0
      rw [getD_replicate_eq_ite]
      exact ite_self _
    rw [hline]
    simp

/-- The default code table maps 0x20 to 0x7E to the glyphs from 0 on, and every other code to UNPRINTABLE (R83). -/
theorem translate_default (v : Byte) :
    translate defaultCodeTable v =
      if 0x20 ≤ v.toNat ∧ v.toNat ≤ 0x7E then .glyph (BitVec.ofNat 7 (v.toNat - 0x20)) else .unprintable := by
  have hlt : v.toNat < 256 := v.isLt
  simp [translate, defaultCodeTable, hlt]

/-- Settles O4: the form and the code table by the two lemmas, the rest as the reset state is written. -/
theorem resetLeavesTheStatedValues : Obligations.ResetLeavesTheStatedValues :=
  ⟨rfl, rfl, rfl, rfl, rfl, rfl, rfl, rfl, rfl, rfl, rfl, rfl, fun _ _ _ hc _ => FormImage.default_carries hc, rfl, rfl, rfl, rfl,
    translate_default, rfl, rfl, rfl, rfl, rfl, rfl, rfl, rfl, rfl, rfl, rfl, rfl, rfl, rfl, rfl⟩

end Sys2Proof.Machine
end

section
/-! The steps due leave nothing due, and every event acts after them (R8, R44, R69, R112, R140, logs 5 and 11). Settles O3. -/

namespace Sys2Proof.Machine

/-! ## The parser leaves no wait that is over -/

/-- A parser that waits does so for want of a place, or of the drain (R8, R112, R115). -/
def State.waitsInVain (s : State) : Prop :=
  (s.parser.state = .awaitPlace → 4 ≤ s.queue.length) ∧ (s.parser.state = .awaitDrain → s.drained = false)

section Parser
variable {s : State}

theorem State.waitsInVain.ofWorking (h : s.parser.state = .idle ∨ s.parser.state = .body) : s.waitsInVain := by
  rcases h with h | h <;> exact ⟨fun e => (nomatch h.symm.trans e), fun e => (nomatch h.symm.trans e)⟩

theorem State.waitsInVain.notDue (h : s.waitsInVain) : s.placeDue = false ∧ s.drainDue = false := by
  constructor
  · cases hs : s.parser.state with
    | awaitPlace => simp [State.placeDue, hs, Nat.not_lt.2 (h.1 hs)]
    | idle | awaitDrain | body => simp [State.placeDue, hs]
  · cases hs : s.parser.state with
    | awaitDrain => simp [State.drainDue, hs, h.2 hs]
    | idle | awaitPlace | body => simp [State.drainDue, hs]

theorem State.takeLine_state (s : State) (o : RecordOrder) :
    (s.takeLine o).parser.state = .idle ∨ (s.takeLine o).parser.state = .body := by
  unfold State.takeLine
  split
  · exact .inr rfl
  · split
    · exact .inl rfl
    · exact .inl rfl

theorem State.lineOrder_waitsInVain (s : State) (o : RecordOrder) : (s.lineOrder o).waitsInVain := by
  unfold State.lineOrder
  split
  · exact .ofWorking (s.takeLine_state o)
  · split
    · exact .ofWorking (s.createComposite.takeLine_state o)
    next h => exact ⟨fun _ => Nat.not_lt.1 h, nofun⟩

theorem State.drainOrder_waitsInVain (s : State) (o : RecordOrder) : (s.drainOrder o).waitsInVain := by
  unfold State.drainOrder
  split
  · exact .ofWorking (.inr rfl)
  next h => exact ⟨nofun, fun _ => Bool.eq_false_iff.2 h⟩

theorem State.startRecord_waitsInVain (h : s.parser.state = .idle) (o : RecordOrder) : (s.startRecord o).waitsInVain := by
  cases o with
  | printSpace | printSkip | moveSpace | moveSkip => exact s.lineOrder_waitsInVain _
  | loadForm | loadGlyph => exact s.drainOrder_waitsInVain _
  | loadCodes => exact .ofWorking (.inr rfl)
  | checkBlank | checkBlock => exact .ofWorking (.inl h)

theorem State.begins_waitsInVain (h : s.parser.state = .idle) (o : Option RecordOrder) : (s.begins o).waitsInVain := by
  cases o with
  | some o => exact State.startRecord_waitsInVain h o
  | none => exact .ofWorking (.inl h)

theorem State.endShort_state (s : State) : s.endShort.parser.state = .idle := by
  unfold State.endShort
  split
  · split
    · rfl
    · rfl
  · rfl

theorem State.finishRecord_state (s : State) (o : RecordOrder) : (s.finishRecord o).parser.state = .idle := by
  cases o with
  | printSpace | printSkip | moveSpace | moveSkip | checkBlank | checkBlock => rfl
  | loadForm => show s.finishForm.parser.state = _; unfold State.finishForm; split <;> rfl
  | loadCodes =>
    show s.finishCodes.parser.state = _
    unfold State.finishCodes
    split
    · split <;> rfl
    · rfl
  | loadGlyph =>
    show s.finishGlyph.parser.state = _
    unfold State.finishGlyph
    split
    · split <;> rfl
    · rfl

theorem State.withRemaining_state (h : s.parser.state = .body) (o : RecordOrder) (n : Nat) :
    (s.withRemaining o n).parser.state = .idle ∨ (s.withRemaining o n).parser.state = .body := by
  unfold State.withRemaining
  dsimp only
  split
  · exact .inl (State.finishRecord_state _ o)
  · exact .inr h

theorem State.printByte_state (s : State) (v : Byte) : (s.printByte v).parser.state = s.parser.state := by
  unfold State.printByte
  dsimp only
  split
  · rfl
  · split
    · rfl
    · split <;> rfl

theorem State.bodyByte_state (h : s.parser.state = .body) (o : RecordOrder) (v : Byte) :
    (s.bodyByte o v).parser.state = .idle ∨ (s.bodyByte o v).parser.state = .body := by
  unfold State.bodyByte
  cases o <;> dsimp only
  case printSpace | printSkip =>
    split
    · refine State.withRemaining_state ?_ _ _
      exact h
    · refine State.withRemaining_state ?_ _ _
      exact (s.printByte_state v).trans h
  case loadForm | loadCodes =>
    split
    · exact .inr h
    · refine State.withRemaining_state ?_ _ _
      exact h
    · refine State.withRemaining_state ?_ _ _
      exact h
  case loadGlyph =>
    refine State.withRemaining_state ?_ _ _
    exact h
  case moveSpace | moveSkip | checkBlank | checkBlock => exact .inr h

theorem State.takeData_waitsInVain (h : s.parser.state = .idle ∨ s.parser.state = .body) (v : Byte) :
    (s.takeData v).waitsInVain := by
  unfold State.takeData
  split
  next hb _ => exact .ofWorking (State.bodyByte_state hb _ v)
  next => exact .ofWorking h

theorem State.takeByte_waitsInVain (b : PortByte) (ht : s.parser.takes b = true) : (s.takeByte b).waitsInVain := by
  unfold State.takeByte
  cases hs : s.parser.state with
  | idle =>
    split
    · rw [State.takeOrder_of_idle _ hs]
      exact State.begins_waitsInVain hs _
    · exact State.takeData_waitsInVain (.inl hs) _
  | body =>
    split
    · rw [State.takeOrder_inRecord _ (.inl hs)]
      exact State.begins_waitsInVain s.endShort_state _
    · exact State.takeData_waitsInVain (.inr hs) _
  | awaitDrain =>
    have ho : b.order = true := by simpa [Parser.takes, hs] using ht
    rw [if_pos ho, State.takeOrder_inRecord _ (.inr hs)]
    exact State.begins_waitsInVain s.endShort_state _
  | awaitPlace => simp [Parser.takes, hs] at ht

theorem State.runParser_waitsInVain (h : s.waitsInVain) (n : Nat) : (s.runParser n).waitsInVain := by
  induction n generalizing s with
  | zero => exact h
  | succ n ih =>
    cases hb : s.inputBuffer with
    | nil => rwa [State.runParser_waits _ (by simp [hb])]
    | cons b rest =>
      cases ht : s.parser.takes b with
      | false => rwa [State.runParser_waits _ (by simp [hb, ht])]
      | true =>
        rw [State.runParser_taken n hb ht]
        exact ih (State.takeByte_waitsInVain (s := { s with inputBuffer := rest }) b ht)

end Parser

/-! ## Each step leaves the steps before it taken -/

section Steps
variable {s : State}

theorem State.grantPlace_notDue (s : State) : s.grantPlace.placeDue = false := by
  cases h : s.placeDue with
  | false => rwa [State.grantPlace_of_not_due h]
  | true =>
    cases ho : s.parser.order with
    | none => simp [State.placeDue, ho] at h
    | some o =>
      have e : s.grantPlace = (s.lineOrder o).parse := by simp [State.grantPlace, h, ho]
      rw [e]
      exact (State.runParser_waitsInVain (s.lineOrder_waitsInVain o) _).notDue.1

theorem State.endDrain_notDue (h : s.placeDue = false) : s.endDrain.placeDue = false ∧ s.endDrain.drainDue = false := by
  cases hd : s.drainDue with
  | false => rw [State.endDrain_of_not_due hd]; exact ⟨h, hd⟩
  | true =>
    cases ho : s.parser.order with
    | none => simp [State.drainDue, ho] at hd
    | some o =>
      have e : s.endDrain = (s.enterBody o).parse := by simp [State.endDrain, hd, ho]
      rw [e]
      exact (State.runParser_waitsInVain (s := s.enterBody o) (.ofWorking (.inr rfl)) _).notDue

/-- A composite that is not OPEN takes another such state: the drain condition is as it was (R112). -/
theorem drained_updateFirst {p : Composite → Bool} {f : Composite → Composite} (hp : ∀ c, p c = true → c.state ≠ .opened)
    (hf : ∀ c, (f c).state ≠ .opened) (s : State) : ({ s with queue := updateFirst p f s.queue } : State).drained = s.drained := by
  unfold State.drained
  match hq : s.queue with
  | [] => rfl
  | [c] =>
    by_cases hc : p c = true
    · simp [updateFirst, hc, beq_false_of_ne (hp c hc), beq_false_of_ne (hf c)]
    · simp [updateFirst, hc]
  | c :: d :: l =>
    by_cases hc : p c = true
    · simp [updateFirst, hc]
    · by_cases hd : p d = true <;> simp [updateFirst, hc, hd]

theorem State.startRender_notDue (hp : s.placeDue = false) (hd : s.drainDue = false) :
    s.startRender.placeDue = false ∧ s.startRender.drainDue = false ∧ s.startRender.renderDue = false := by
  cases h : s.renderDue with
  | false => rw [State.startRender_of_not_due h]; exact ⟨hp, hd, h⟩
  | true =>
    obtain ⟨⟨hr, hb⟩, hq⟩ :
        (s.render = none ∧ ∃ buf, s.freeBuffer = some buf) ∧ ∃ c ∈ s.queue, (c.state == .closed) = true := by
      simpa only [State.renderDue, Bool.and_eq_true, List.any_eq_true, Option.isSome_iff_exists,
        Option.isNone_iff_eq_none] using h
    obtain ⟨buf, hb⟩ := hb
    obtain ⟨c, hc⟩ := Option.isSome_iff_exists.1 (List.find?_isSome.2 hq)
    have hdrain := drained_updateFirst (p := fun x => x.state == .closed)
      (f := fun x => { x with state := .rendering, buffer := some buf })
      (fun c hc => by rw [beq_iff_eq.1 hc]; nofun) (fun _ => nofun) s
    have hlen := updateFirst_length (fun x => x.state == .closed)
      (fun x : Composite => { x with state := .rendering, buffer := some buf }) s.queue
    simp only [State.startRender, h, hb, hc, if_true]
    refine ⟨?_, ?_, rfl⟩
    · unfold State.placeDue at hp ⊢
      dsimp only
      rw [hlen]
      exact hp
    · unfold State.drainDue at hd ⊢
      rw [← hdrain] at hd
      exact hd

/-- The steps before a motion start depend on the queue only by its length, its CLOSED composites and the drain (R8, R69, R112). -/
theorem State.startMotion_notDue (hp : s.placeDue = false) (hd : s.drainDue = false) (hr : s.renderDue = false) :
    s.startMotion.placeDue = false ∧ s.startMotion.drainDue = false ∧ s.startMotion.renderDue = false ∧
      s.startMotion.motionDue = false := by
  cases h : s.motionDue with
  | false => rw [State.startMotion_of_not_due h]; exact ⟨hp, hd, hr, h⟩
  | true =>
    obtain ⟨⟨⟨⟨hm, hf⟩, ho⟩, hs⟩, hq⟩ :
        (((s.motion = none ∧ s.faulted = false) ∧ s.mode = .online) ∧ s.stops.any = false) ∧ _ := by
      simpa only [State.motionDue, Bool.and_eq_true, Option.isNone_iff_eq_none, Bool.not_eq_true', beq_iff_eq] using h
    cases hc : s.queue with
    | nil => simp [hc] at hq
    | cons c rest =>
      obtain ⟨hst, ha⟩ : c.state = .ready ∧ c.action.isSome = true := by simpa [hc] using hq
      obtain ⟨a, ha⟩ := Option.isSome_iff_exists.1 ha
      cases hb : c.flags.blocked with
      | true =>
        have e : s.startMotion = s.recordFault .dataCheck := by simp [State.startMotion, h, hc, hb]
        have hmot : (s.recordFault .dataCheck).motion = s.motion := by simp [State.recordFault, State.cutoff, hm]
        rw [e]
        refine ⟨hp, ?_, hr, ?_⟩
        · unfold State.drainDue State.drained at hd ⊢
          rw [hmot]
          exact hd
        · simp [State.motionDue, State.faulted, State.recordFault, State.cutoff]
      | false =>
        have e : s.startMotion =
            { s with queue := { c with state := .printing } :: rest }.beginMotion false (!c.layers.isEmpty) a := by
          simp [State.startMotion, h, hc, hb, ha]
        rw [e]
        refine ⟨?_, ?_, ?_, rfl⟩
        · unfold State.placeDue at hp ⊢
          rw [hc] at hp
          exact hp
        · simp [State.drainDue, State.drained, State.beginMotion]
        · unfold State.renderDue at hr ⊢
          rw [hc, List.any_cons, hst] at hr
          exact hr

theorem State.settle_inputs (s : State) : s.settle.inputs = s.inputs := by
  have hplace : s.grantPlace.inputs = s.inputs := by
    obtain e | ⟨o, -, -, -, -, e⟩ := s.grantPlace_cases <;> rw [e]
    rw [(s.lineOrder_parserFrame o).trans (s.lineOrder o).parse_parserFrame]
  have hdrain (t : State) : t.endDrain.inputs = t.inputs := by
    obtain e | ⟨o, -, -, -, e⟩ := t.endDrain_cases <;> rw [e]
    rw [(t.enterBody o).parse_parserFrame]
    rfl
  have hrender (t : State) : t.startRender.inputs = t.inputs := by
    obtain e | ⟨_, _, -, -, -, e⟩ := t.startRender_cases <;> rw [e]
  have hmotion (t : State) : t.startMotion.inputs = t.inputs := by
    obtain e | ⟨_, _, _, -, -, -, -, -, -, -, ⟨-, e⟩ | ⟨-, e⟩⟩ := t.startMotion_cases <;> rw [e] <;> rfl
  rw [State.settle, hmotion, hrender, hdrain, hplace]

/-- Nothing is due in the state after the steps due (log 5). -/
theorem State.catchUp_quiet (s : State) : s.catchUp.quiet = true := by
  obtain ⟨hplace, hdrain⟩ := State.endDrain_notDue s.releaseKeys.grantPlace_notDue
  obtain ⟨hplace, hdrain, hrender⟩ := State.startRender_notDue hplace hdrain
  obtain ⟨hplace, hdrain, hrender, hmotion⟩ := State.startMotion_notDue hplace hdrain hrender
  have hkeys : s.releaseKeys.settle.inputs.keyDown = false := by rw [State.settle_inputs]; rfl
  exact s.catchUp.quiet_iff.2 ⟨hplace, hdrain, hrender, hmotion, rfl, hkeys⟩

theorem State.catchUp_catchUp (s : State) : s.catchUp.catchUp = s.catchUp := State.catchUp_of_quiet s.catchUp_quiet

end Steps

/-! ## Every event acts after the steps due -/

theorem strobeOrder_catchUp (v : Byte) (s : State) : strobeOrder v s = strobeOrder v s.catchUp := by
  unfold strobeOrder
  split
  next c _ => cases c <;> simp only [controlStrobe, strobeControl, State.catchUp_catchUp]
  next => rw [State.catchUp_catchUp]

/-- Each arm but those of the four steps due begins with the steps due (logs 5, 11). -/
theorem exec_catchUp (c : Instr) (s : State) (hp : c ≠ .placeGrant) (hd : c ≠ .drainEnd) (hr : c ≠ .renderStart)
    (hm : c ≠ .motionStart) : exec c s = exec c s.catchUp := by
  cases c with
  | placeGrant => exact absurd rfl hp
  | drainEnd => exact absurd rfl hd
  | renderStart => exact absurd rfl hr
  | motionStart => exact absurd rfl hm
  | printSpace | printSkip | moveSpace | moveSkip | loadForm | loadCodes | loadGlyph | checkBlank | checkBlock | unknownOrder
  | hold | discard | resume | sense => exact congrArg Host.Outcome.next (strobeOrder_catchUp _ s)
  | dataByte =>
    show execDataByte _ s = execDataByte _ s.catchUp
    unfold execDataByte
    rw [State.catchUp_catchUp]
  | arbitrationRead =>
    show execArbitrationRead _ s = execArbitrationRead _ s.catchUp
    unfold execArbitrationRead
    rw [State.catchUp_catchUp]
  | senseRecordRead =>
    show execSenseRecordRead s = execSenseRecordRead s.catchUp
    unfold execSenseRecordRead
    rw [State.catchUp_catchUp]
  | pstrFall =>
    show execPstrFall _ s = execPstrFall _ s.catchUp
    unfold execPstrFall
    rw [State.catchUp_catchUp]
  | pinitFall =>
    show execPinitFall s = execPinitFall s.catchUp
    unfold execPinitFall
    rw [State.catchUp_catchUp]
  | pinit =>
    show execPinit _ s = execPinit _ s.catchUp
    unfold execPinit
    rw [State.catchUp_catchUp]
  | fullReset =>
    show execFullReset s = execFullReset s.catchUp
    unfold execFullReset
    rw [State.catchUp_catchUp]
  | resetRelease =>
    show execResetRelease _ s = execResetRelease _ s.catchUp
    unfold execResetRelease
    rw [State.catchUp_catchUp]
  | startIntervalExpiry =>
    show execStartIntervalExpiry s = execStartIntervalExpiry s.catchUp
    unfold execStartIntervalExpiry
    rw [State.catchUp_catchUp]
  | formingIntervalExpiry =>
    show execFormingIntervalExpiry s = execFormingIntervalExpiry s.catchUp
    unfold execFormingIntervalExpiry
    rw [State.catchUp_catchUp]
  | joinRise =>
    show execJoinRise s = execJoinRise s.catchUp
    unfold execJoinRise
    rw [State.catchUp_catchUp]
  | joinFall =>
    show execJoinFall s = execJoinFall s.catchUp
    unfold execJoinFall
    rw [State.catchUp_catchUp]
  | coverOpen =>
    show execCoverOpen s = execCoverOpen s.catchUp
    unfold execCoverOpen
    rw [State.catchUp_catchUp]
  | coverClosed =>
    show execCoverClosed s = execCoverClosed s.catchUp
    unfold execCoverClosed
    rw [State.catchUp_catchUp]
  | paperAbsent =>
    show execPaperAbsent s = execPaperAbsent s.catchUp
    unfold execPaperAbsent
    rw [State.catchUp_catchUp]
  | paperPresent =>
    show execPaperPresent s = execPaperPresent s.catchUp
    unfold execPaperPresent
    rw [State.catchUp_catchUp]
  | kstart =>
    show execKstart s = execKstart s.catchUp
    unfold execKstart
    rw [State.catchUp_catchUp]
  | kstop =>
    show execKstop s = execKstop s.catchUp
    unfold execKstop
    rw [State.catchUp_catchUp]
  | kfeed =>
    show execKfeed s = execKfeed s.catchUp
    unfold execKfeed
    rw [State.catchUp_catchUp]
  | ktof =>
    show execKtof s = execKtof s.catchUp
    unfold execKtof
    rw [State.catchUp_catchUp]
  | faultFall =>
    show execFaultFall s = execFaultFall s.catchUp
    unfold execFaultFall
    rw [State.catchUp_catchUp]
  | faultRise =>
    show execFaultRise _ s = execFaultRise _ s.catchUp
    unfold execFaultRise
    rw [State.catchUp_catchUp]
  | step =>
    show execStep s = execStep s.catchUp
    unfold execStep
    rw [State.catchUp_catchUp]
  | frameEvent =>
    show execFrameEvent s = execFrameEvent s.catchUp
    unfold execFrameEvent
    rw [State.catchUp_catchUp]
  | stepPulseEnd =>
    show execStepPulseEnd s = execStepPulseEnd s.catchUp
    unfold execStepPulseEnd
    rw [State.catchUp_catchUp]
  | stepRelease =>
    show execStepRelease s = execStepRelease s.catchUp
    unfold execStepRelease
    rw [State.catchUp_catchUp]
  | firePulseStart =>
    show execFirePulseStart s = execFirePulseStart s.catchUp
    unfold execFirePulseStart
    rw [State.catchUp_catchUp]
  | firePulseEnd =>
    show execFirePulseEnd s = execFirePulseEnd s.catchUp
    unfold execFirePulseEnd
    rw [State.catchUp_catchUp]
  | frameHoldDelay =>
    show execFrameHoldDelay s = execFrameHoldDelay s.catchUp
    unfold execFrameHoldDelay
    rw [State.catchUp_catchUp]
  | frameTimerExpiry =>
    show execFrameTimerExpiry s = execFrameTimerExpiry s.catchUp
    unfold execFrameTimerExpiry
    rw [State.catchUp_catchUp]
  | renderCompletion =>
    show execRenderCompletion s = execRenderCompletion s.catchUp
    unfold execRenderCompletion
    rw [State.catchUp_catchUp]

theorem execKstart_next (s : State) : ∃ t, exec .kstart s = .next t := by
  show ∃ t, execKstart s = .next t
  unfold execKstart
  dsimp only
  split
  · exact ⟨_, rfl⟩
  · exact ⟨_, rfl⟩

/-- Settles O3: each step due leaves those before it taken, and taking what is due at a quiet state changes nothing. -/
theorem eventsFollowTheStepsDue : Obligations.EventsFollowTheStepsDue := by
  refine ⟨State.catchUp_quiet, exec_catchUp, fun s => ?_⟩
  obtain ⟨t, ht⟩ := execKstart_next s
  refine ⟨t, ht, ?_⟩
  obtain ⟨-, -, -, -, -, hkeys⟩ := t.catchUp.quiet_iff.1 t.catchUp_quiet
  simp only [Inputs.keyDown, Bool.or_eq_false_iff] at hkeys
  exact hkeys.1.1.1

end Sys2Proof.Machine
end

section
/-! The line orders (R7, R8, R10, R11, R12, R15, R101, R106): the place they take in the queue, at the strobe or with a grant of a
place, and the end of a PRINT record. Settles O13, O14, O21 and O26. -/

namespace Sys2Proof.Machine

/-! ## A line order by what the queue holds -/

section LineOrder
variable {s : State} {o : RecordOrder}

/-- The parser in BODY of a PRINT record whose count byte has not been taken (R101, R102). -/
def Parser.printBegun (o : RecordOrder) (w : Nat) (mode : CheckMode) : Parser :=
  { state := .body, order := some o, layer := some (.fresh w), checkMode := mode }

theorem State.lineOrder_of_open (o : RecordOrder) (h : s.hasOpen = true) : s.lineOrder o = s.takeLine o := by
  rw [State.lineOrder, if_pos h]

theorem State.lineOrder_of_place (o : RecordOrder) (h : s.hasOpen = false) (hl : s.queue.length < 4) :
    s.lineOrder o = s.createComposite.takeLine o := by
  rw [State.lineOrder, if_neg (by simp [h]), if_pos hl]

theorem State.lineOrder_of_full (o : RecordOrder) (h : s.hasOpen = false) (hl : 4 ≤ s.queue.length) :
    s.lineOrder o = s.await .awaitPlace o := by
  rw [State.lineOrder, if_neg (by simp [h]), if_neg (by omega)]

theorem State.takeLine_print (ho : isPrint o = true) :
    s.takeLine o = { s with parser := .printBegun o s.straps.effective s.parser.checkMode } := by
  rw [State.takeLine, if_pos ho]
  cases o with
  | printSpace | printSkip => rfl
  | _ => cases ho

/-- A MOVE order and the action it closes a line with (R12). -/
def isMove (o : RecordOrder) (a : Action) : Prop :=
  (∃ k, o = .moveSpace k ∧ a = .space k) ∨ ∃ c, o = .moveSkip c ∧ a = .skip c

theorem State.takeLine_move {a : Action} (ho : isMove o a) : s.takeLine o = (s.closeOpen a).clearParser := by
  rcases ho with ⟨k, rfl, rfl⟩ | ⟨c, rfl, rfl⟩ <;> rfl

theorem State.startRecord_print (ho : isPrint o = true) : s.startRecord o = s.lineOrder o := by
  cases o with
  | printSpace | printSkip => rfl
  | _ => cases ho

theorem State.startRecord_move {a : Action} (ho : isMove o a) : s.startRecord o = s.lineOrder o := by
  rcases ho with ⟨k, rfl, rfl⟩ | ⟨c, rfl, rfl⟩ <;> rfl

theorem Composite.close_eq (a : Action) (c : Composite) :
    c.close a = { c with action := some a, state := if c.layers = [] then .ready else .closed } := by
  unfold Composite.close
  cases c.layers <;> rfl

theorem State.closeOpen_newest {q : List Composite} {c : Composite} (a : Action) (hq : s.queue = q ++ [c])
    (hpre : ∀ x ∈ q, x.state ≠ .opened) (hc : c.state = .opened) :
    s.closeOpen a =
      { s with queue := q ++ [{ c with action := some a, state := if c.layers = [] then .ready else .closed }] } := by
  rw [State.closeOpen, s.onOpen_newest _ hq hpre hc, Composite.close_eq]

/-- A composite created for a MOVE is READY with zero layers (R12, R15). -/
theorem State.closeOpen_created (a : Action) (h : s.hasOpen = false) :
    s.createComposite.closeOpen a =
      { s with
        queue := s.queue ++ [{ seq := s.counter, state := .ready, layers := [], action := some a }]
        counter := s.counter + 1 } :=
  State.closeOpen_newest (s := s.createComposite) (q := s.queue) (c := { seq := s.counter }) a rfl
    ((State.hasOpen_eq_false_iff s).1 h) rfl

theorem State.hasOpen_of_newest {q : List Composite} {c : Composite} (hq : s.queue = q ++ [c]) (hc : c.state = .opened) :
    s.hasOpen = true :=
  (State.hasOpen_iff s).2 ⟨c, by simp [hq], hc⟩

end LineOrder

/-! ## The order at the strobe -/

/-- A record order strobed in IDLE with nothing waiting begins its record (R101). -/
theorem exec_recordOrder {s : State} {i : Instr} {o : RecordOrder} (hw : i.wf = true) (ho : recordOrderOf i = some o)
    (h : s.takesOrders = true) : exec i s = .next (s.strobed.startRecord o) := by
  have hbegin := (orderByteEndsTheRecordShort s i hw (.inl (by rw [ho]; rfl))).1 h
  rw [ho] at hbegin
  exact hbegin

/-- The PRINT commands and their orders (R10, R11). -/
theorem printOrder_facts {i : Instr} {o : RecordOrder}
    (h : (∃ k, k ≤ 3 ∧ i = .printSpace k ∧ o = .printSpace k) ∨
      (∃ c, 1 ≤ c ∧ c ≤ 12 ∧ i = .printSkip c ∧ o = .printSkip c)) :
    i.wf = true ∧ recordOrderOf i = some o ∧ isPrint o = true := by
  rcases h with ⟨k, hk, rfl, rfl⟩ | ⟨c, h1, hc, rfl, rfl⟩
  · exact ⟨by simpa [Instr.wf] using hk, rfl, rfl⟩
  · exact ⟨by simp [Instr.wf, h1, hc], rfl, rfl⟩

/-- The MOVE commands, their orders and their actions (R12). -/
theorem moveOrder_facts {i : Instr} {o : RecordOrder} {a : Action}
    (h : (∃ k, 1 ≤ k ∧ k ≤ 3 ∧ i = .moveSpace k ∧ o = .moveSpace k ∧ a = .space k) ∨
      (∃ c, 1 ≤ c ∧ c ≤ 12 ∧ i = .moveSkip c ∧ o = .moveSkip c ∧ a = .skip c)) :
    i.wf = true ∧ recordOrderOf i = some o ∧ isMove o a := by
  rcases h with ⟨k, h1, hk, rfl, rfl, rfl⟩ | ⟨c, h1, hc, rfl, rfl, rfl⟩
  · exact ⟨by simp [Instr.wf, h1, hk], rfl, .inl ⟨k, rfl, rfl⟩⟩
  · exact ⟨by simp [Instr.wf, h1, hc], rfl, .inr ⟨c, rfl, rfl⟩⟩

/-- Settles O13: by what the queue holds, the order enters its body, creates its composite, or waits. -/
theorem printOrderTakesItsPlace : Obligations.PrintOrderTakesItsPlace := by
  intro s i o hi h w body
  obtain ⟨hw, hio, ho⟩ := printOrder_facts hi
  rw [exec_recordOrder hw hio h, State.startRecord_print ho]
  refine ⟨fun hopen => ?_, fun hopen hl => ?_, fun hopen hl => ?_⟩
  · rw [State.lineOrder_of_open (s := s.strobed) o hopen, State.takeLine_print ho]
    rfl
  · rw [State.lineOrder_of_place (s := s.strobed) o hopen hl, State.takeLine_print ho]
    rfl
  · rw [State.lineOrder_of_full (s := s.strobed) o hopen hl]
    rfl

/-- Settles O14: by what the queue holds, the order closes the OPEN composite, creates a closed one, or waits. -/
theorem moveOrderClosesTheLine : Obligations.MoveOrderClosesTheLine := by
  intro s i o a hi h
  obtain ⟨hw, hio, ho⟩ := moveOrder_facts hi
  rw [exec_recordOrder hw hio h, State.startRecord_move ho]
  refine ⟨fun q c hq hpre hc => ?_, fun hopen hl => ?_, fun hopen hl => ?_⟩
  · rw [State.lineOrder_of_open (s := s.strobed) o (State.hasOpen_of_newest hq hc), State.takeLine_move ho,
      State.closeOpen_newest (s := s.strobed) a hq hpre hc]
    rfl
  · rw [State.lineOrder_of_place (s := s.strobed) o hopen hl, State.takeLine_move ho,
      State.closeOpen_created (s := s.strobed) a hopen]
    rfl
  · rw [State.lineOrder_of_full (s := s.strobed) o hopen hl]
    rfl

/-! ## The end of a PRINT record -/

section PrintRecord
variable {s : State} {o : RecordOrder}

/-- The count byte starts a fresh layer at column 1, and ends the record where it is 0 (R102, R103). -/
theorem State.bodyByte_printCount (ho : isPrint o = true) (hr : s.parser.remaining = none) (v : Byte) :
    s.bodyByte o v =
      State.withRemaining o v.toNat
        { s with
          parser := { s.parser with column := 1, layer := some (.fresh s.straps.effective), longNote := false } } := by
  cases o with
  | printSpace | printSkip => simp [State.bodyByte, hr]
  | _ => cases ho

theorem State.finishRecord_print (ho : isPrint o = true) : s.finishRecord o = s.finishPrint o false := by
  cases o with
  | printSpace | printSkip => rfl
  | _ => cases ho

/-- Settles O21: the count byte 0 ends the record, whose layer a full composite drops. -/
theorem fifthLayerIsDropped : Obligations.FifthLayerIsDropped := by
  intro s q c o b ho hs hb hr hq hpre hc hfull kept
  have hstruck : c.struck (LayerBuild.fresh s.straps.effective).complete .none false = kept := by
    rw [Composite.struck, if_neg (by omega), Bool.or_false]
  have hwarn : c.struckWarnings .none false s.warnings =
      if c.flags.layerOverflow then s.warnings else addOnce .layerOverflow s.warnings := by
    simp [Composite.struckWarnings, Nat.not_lt.2 hfull]
  show execDataByte 0 s = _
  rw [execDataByte_body 0 hs, State.bodyByte_printCount (s := s.strobed) ho hr]
  show Host.Outcome.next (State.finishRecord o _) = _
  rw [State.finishRecord_print ho]
  refine congrArg Host.Outcome.next
    ((State.finishPrint_newest (b := .fresh s.straps.effective) (q := q) (c := c) false ho ?_ ?_ hpre hc).trans ?_)
  · rfl
  · exact hq
  show ({ s.strobed with
    parser := s.idleParser
    queue := q ++ [(c.struck (LayerBuild.fresh s.straps.effective).complete .none false).afterPrint o]
    warnings := c.struckWarnings .none false s.warnings } : State) = _
  rw [hstruck, hwarn]

end PrintRecord

/-! ## The grant of a place -/

section Grant
variable {s : State} {o : RecordOrder}

theorem State.offerLayer_inputBuffer (s : State) (l : Layer) (k : Mark) (b : Bool) :
    (s.offerLayer l k b).inputBuffer = s.inputBuffer := by
  unfold State.offerLayer
  split
  · rw [State.raiseAll_eq, State.onOpen_inputBuffer]
  · rfl

theorem State.finishPrint_inputBuffer (s : State) (o : RecordOrder) (b : Bool) :
    (s.finishPrint o b).inputBuffer = s.inputBuffer := by
  unfold State.finishPrint
  dsimp only
  rw [State.clearParser_inputBuffer]
  split
  · exact s.offerLayer_inputBuffer _ _ _
  · exact s.offerLayer_inputBuffer _ _ _

theorem State.takeByte_data_body (hs : s.parser.state = .body) (hor : s.parser.order = some o) (v : Byte) :
    s.takeByte { value := v, order := false } = s.bodyByte o v := by
  show s.takeData v = _
  rw [State.takeData, hs, hor]

/-- The first byte taken in the body of a PRINT leaves the bytes behind it (R99, R102, R116). -/
theorem State.takeByte_print_inputBuffer (ho : isPrint o = true) (hs : s.parser.state = .body) (hor : s.parser.order = some o)
    (hr : s.parser.remaining = none) (x : PortByte) : (s.takeByte x).inputBuffer = s.inputBuffer := by
  obtain ⟨v, order⟩ := x
  cases order with
  | false =>
    rw [State.takeByte_data_body hs hor, State.bodyByte_printCount ho hr, State.withRemaining]
    dsimp only
    split
    · rw [State.finishRecord_print ho, State.finishPrint_inputBuffer]
    · rfl
  | true =>
    show (s.takeOrder v).inputBuffer = _
    rw [State.takeOrder_inRecord v (.inl hs), State.begins_inputBuffer, State.endShort, hor]
    dsimp only
    rw [if_pos ho, State.finishPrint_inputBuffer]

/-- A byte taken in IDLE leaves the bytes behind it (R99, R118). -/
theorem State.takeByte_idle_inputBuffer (hi : s.parser.state = .idle) (x : PortByte) :
    (s.takeByte x).inputBuffer = s.inputBuffer := by
  obtain ⟨v, order⟩ := x
  cases order with
  | false =>
    show (s.takeData v).inputBuffer = _
    simp [State.takeData, hi]
  | true =>
    show (s.takeOrder v).inputBuffer = _
    rw [State.takeOrder_of_idle v hi, State.begins_inputBuffer]

theorem exec_placeGrant (hp : s.parser.state = .awaitPlace) (ho : s.parser.order = some o) (hline : isLineOrder o = true)
    (hl : s.queue.length < 4) : exec .placeGrant s = .next (s.lineOrder o).parse := by
  have hdue : s.placeDue = true := by simp [State.placeDue, hp, hl, ho, hline]
  show Host.Outcome.next s.grantPlace = _
  rw [State.grantPlace, if_pos hdue, ho]

/-- The granted state, before the bytes that wait are taken: its parser takes any byte, and the byte leaves those behind it
(R8, R99). -/
structure State.GrantedBy (s : State) (o : RecordOrder) (granted : State) : Prop where
  line : isLineOrder o = true
  order : ∀ l : List PortByte, ({ s with inputBuffer := l } : State).lineOrder o = { granted with inputBuffer := l }
  empty : granted.inputBuffer = []
  takes : ∀ x, granted.parser.takes x = true
  keeps : ∀ x l, (State.takeByte x { granted with inputBuffer := l }).inputBuffer = l

theorem State.GrantedBy.print (ho : isPrint o = true) (h : s.hasOpen = false) (hl : s.queue.length < 4) :
    s.GrantedBy o
      { s with
        queue := s.queue ++ [{ seq := s.counter, state := .opened, layers := [] }]
        counter := s.counter + 1
        parser := .printBegun o s.straps.effective s.parser.checkMode
        inputBuffer := [] } where
  line := by
    cases o with
    | printSpace | printSkip => rfl
    | _ => cases ho
  order l := by
    rw [State.lineOrder_of_place (s := { s with inputBuffer := l }) o h hl, State.takeLine_print ho]
    rfl
  empty := rfl
  takes _ := rfl
  keeps x _ := State.takeByte_print_inputBuffer ho rfl rfl rfl x

theorem State.GrantedBy.move {a : Action} (ho : isMove o a) (h : s.hasOpen = false) (hl : s.queue.length < 4) :
    s.GrantedBy o
      { s with
        queue := s.queue ++ [{ seq := s.counter, state := .ready, layers := [], action := some a }]
        counter := s.counter + 1
        parser := s.idleParser
        inputBuffer := [] } where
  line := by rcases ho with ⟨k, rfl, -⟩ | ⟨c, rfl, -⟩ <;> rfl
  order l := by
    rw [State.lineOrder_of_place (s := { s with inputBuffer := l }) o h hl, State.takeLine_move ho,
      State.closeOpen_created (s := { s with inputBuffer := l }) a h]
    rfl
  empty := rfl
  takes _ := rfl
  keeps x _ := State.takeByte_idle_inputBuffer rfl x

/-- The bytes that wait at a grant are taken, the second where the parser's state takes it (R99, R115). -/
theorem State.GrantedBy.exec {granted : State} (h : s.GrantedBy o granted) (hp : s.parser.state = .awaitPlace)
    (ho : s.parser.order = some o) (hl : s.queue.length < 4) :
    (s.inputBuffer = [] → Machine.exec .placeGrant s = .next granted) ∧
      (∀ x, s.inputBuffer = [x] → Machine.exec .placeGrant s = .next (granted.takeByte x)) ∧
      ∀ x y, s.inputBuffer = [x, y] →
        let one : State := State.takeByte x { granted with inputBuffer := [y] }
        Machine.exec .placeGrant s =
          .next (if one.parser.takes y then State.takeByte y { one with inputBuffer := [] } else one) := by
  have hself : ({ granted with inputBuffer := [] } : State) = granted := by rw [← h.empty]
  rw [exec_placeGrant hp ho h.line hl, show s.lineOrder o = { granted with inputBuffer := s.inputBuffer } from h.order s.inputBuffer]
  refine ⟨fun hb => ?_, fun x hb => ?_, fun x y hb => ?_⟩
  · rw [hb, State.parse_of_empty rfl, hself]
  · rw [hb]
    refine congrArg Host.Outcome.next ((State.parse_one (s := { granted with inputBuffer := [x] }) rfl (h.takes x)).trans ?_)
    show State.takeByte x { granted with inputBuffer := [] } = _
    rw [hself]
  · rw [hb]
    exact congrArg Host.Outcome.next (State.parse_two rfl (h.takes x) rfl (h.keeps x [y]))

/-- Settles O26: each order's granted state takes the bytes that wait. -/
theorem placeGrantServesTheWaitingOrder : Obligations.PlaceGrantServesTheWaitingOrder := by
  intro s o hp ho hopen hl w body opens closes granted hg
  have hgranted : s.GrantedBy o granted := by
    rcases hg with ⟨hprint, rfl⟩ | ⟨a, hmove, rfl⟩
    · exact .print hprint hopen hl
    · exact .move hmove hopen hl
  obtain ⟨hnone, hone, htwo⟩ := hgranted.exec hp ho hl
  refine ⟨hnone, hone, htwo, fun v hprint hv => ?_⟩
  rcases hg with ⟨-, rfl⟩ | ⟨a, hmove, -⟩
  · have hne : v.toNat ≠ 0 := fun h0 => hv (BitVec.eq_of_toNat_eq h0)
    refine (State.takeByte_data_body rfl rfl v).trans ?_
    rw [State.bodyByte_printCount hprint rfl, State.withRemaining, if_neg hne]
    rfl
  · rcases hmove with ⟨k, rfl, -⟩ | ⟨c, rfl, -⟩ <;> cases hprint

end Grant

end Sys2Proof.Machine
end

section
/-! DISCARD (R19, R61, R62, R76, R77, R120, R133): what it clears, and what it does by the motion in hand. Settles O29. -/

namespace Sys2Proof.Machine

/-- What DISCARD clears: the queue, the counter, the render, the buffers' holders, the input and three faults (R19, R76, R77, R120,
R133). -/
def State.discardCleared (s : State) : State :=
  { s with
    queue := [], counter := 0, render := none, inputBuffer := [], parser := s.idleParser
    faults := s.faults.filter fun f => !(f == .inputOverrun || f == .barBroken || f == .dataCheck)
    bufA := { s.bufA with holder := none }
    bufB := { s.bufB with holder := none } }

/-- The removals of DISCARD, before its stop (R19, R120, R133). -/
def State.discarded (s : State) : State := (s.removeComposites false).abandonInput.removeFaults discardClears

theorem discardClears_eq : discardClears = fun f => f == .inputOverrun || f == .barBroken || f == .dataCheck := by
  funext f
  cases f <;> rfl

section Discarded
variable {s : State} {m : Motion}

/-- With an empty queue the three faults go and no BLOCKED flag is there to clear (R3, R133). -/
theorem State.removeFaults_discard (hq : s.queue = []) :
    s.removeFaults discardClears =
      { s with faults := s.faults.filter fun f => !(f == .inputOverrun || f == .barBroken || f == .dataCheck) } := by
  have hkept (b : Bool) : (if b then unblock s.queue else s.queue) = s.queue := by
    rw [hq]
    exact ite_self _
  rw [State.removeFaults, hkept, discardClears_eq]

theorem State.emptied_discarded (s : State) : s.emptied.abandonInput.removeFaults discardClears = s.discardCleared := by
  rw [State.removeFaults_discard rfl]
  rfl

theorem State.discarded_of_boundary (hm : s.motion = none) : s.discarded = s.discardCleared := by
  rw [State.discarded, State.removeComposites_of_boundary false hm, State.emptied_discarded]

theorem State.discarded_of_feed (hm : s.motion = some m) (h1 : 1 ≤ m.steps) (hf : m.feed = true) :
    s.discarded = s.discardCleared := by
  rw [State.discarded, State.removeComposites_of_feed false hm h1 hf, State.emptied_discarded]

theorem State.discarded_of_unstepped (hm : s.motion = some m) (h0 : m.steps = 0) :
    s.discarded = s.discardCleared.dropMotion := by
  rw [State.discarded, State.removeComposites_of_unstepped false hm h0, State.removeFaults_discard rfl]
  rfl

/-- Under DISCARD a line that has stepped stays as sequence 127, with no buffer and its firing off (R19, R62). -/
theorem State.discarded_of_line {c : Composite} {rest : List Composite} (hm : s.motion = some m) (h1 : 1 ≤ m.steps)
    (hf : m.feed = false) (hc : s.queue = c :: rest) :
    s.discarded =
      { s.discardCleared with
        queue :=
          [{ c with
              seq := 127, buffer := none
              flags := { c.flags with blocked := c.flags.blocked && !s.faults.contains .dataCheck } }]
        motion := some { m with firing := false, row := .none } } := by
  have hremove : s.removeComposites false =
      { s.emptied with
        queue := [{ c with seq := 127, buffer := none }]
        motion := some { m with firing := false, row := .none } } := by
    rw [State.removeComposites, hm, hc]
    dsimp only
    rw [if_neg (by omega), if_neg (by simp [hf])]
    rfl
  rw [State.discarded, hremove, State.removeFaults, discardClears_eq]
  by_cases hd : FaultKind.dataCheck ∈ s.faults <;>
    simp [State.abandonInput, State.clearParser, State.emptied, State.discardCleared, State.idleParser, unblock, hd,
      ImageBuffer.free]

/-! ## The stop -/

theorem State.discardOrder_of_online {t : State} (h : s.discarded = t) (ho : t.mode = .online) :
    s.discardOrder = t.addStop .discard := by
  subst h
  exact if_pos ho

theorem State.discardOrder_of_not_online {t : State} (h : s.discarded = t) (ho : t.mode ≠ .online) : s.discardOrder = t := by
  subst h
  exact if_neg ho

/-- At a boundary an ONLINE station becomes HELD at once, and no other changes its mode (R131, R133). -/
theorem State.discardOrder_alone {t : State} (h : s.discarded = t) (hs : t.stops = {}) (hm : t.motion = none) :
    s.discardOrder = { t with mode := if t.mode = .online then .held else t.mode } := by
  by_cases ho : t.mode = .online
  · rw [State.discardOrder_of_online h ho, State.addStop_alone_of_boundary .discard (by decide) hs hm, if_pos ho, ho]
    rfl
  · rw [State.discardOrder_of_not_online h ho, if_neg ho]

theorem exec_discard_of_working (hq : s.quiet = true) (ha : s.answers = true) (hw : s.mode.working = true) :
    exec .discard s = .next s.strobed.discardOrder := by
  refine congrArg Host.Outcome.next ((strobeOrder_control .discard s).trans ?_)
  exact (strobeControl_taken _ State.discardOrder hq ha).trans (if_pos hw)

theorem exec_discard_of_not_working (hq : s.quiet = true) (ha : s.answers = true) (hw : s.mode.working = false) :
    exec .discard s = .next (s.strobed.removeFaults discardClears) := by
  refine congrArg Host.Outcome.next ((strobeOrder_control .discard s).trans ?_)
  exact (strobeControl_taken _ State.discardOrder hq ha).trans (if_neg (by simp [hw]))

end Discarded

/-- Settles O29: by the motion in hand, what is removed, and then the stop in ONLINE. -/
theorem discardRemovesTheLines : Obligations.DiscardRemovesTheLines := by
  refine ⟨fun s hq ha => ?_, fun s hq ha => ?_⟩
  · exact congrArg Host.Outcome.next ((strobeOrder_control .discard s).trans
      ((strobeControl_passed _ State.discardOrder hq ha).trans (State.writeRise_of_silent ha)))
  · intro faults cleared stopped next
    have hexec := exec_discard_of_working hq ha
    have online {m : Mode} (h : m = .online) : m.working = true := h ▸ rfl
    refine ⟨fun hw hs hm => ?_, fun m hw hs hm h0 => ?_, fun m c rest ho hm h1 hf hc => ?_, fun m ho hm h1 hf => ?_,
      fun m ho hm h1 hf => ?_, fun hm he => ?_⟩
    · rw [hexec hw, State.discardOrder_alone (State.discarded_of_boundary (s := s.strobed) hm) hs hm]
      rfl
    · rw [hexec hw, State.discardOrder_alone (State.discarded_of_unstepped (s := s.strobed) hm h0) hs rfl]
      rfl
    · rw [hexec (online ho), State.discardOrder_of_online (State.discarded_of_line (s := s.strobed) hm h1 hf hc) ho,
        State.addStop_of_stepped (m := { m with firing := false, row := .none }) .discard rfl h1]
      rfl
    · have hw : s.mode.working = true := ho ▸ rfl
      have hno : s.mode ≠ .online := ho ▸ nofun
      rw [hexec hw, State.discardOrder_of_not_online (State.discarded_of_feed (s := s.strobed) hm h1 hf) hno]
      rfl
    · rw [hexec (online ho), State.discardOrder_of_online (State.discarded_of_feed (s := s.strobed) hm h1 hf) ho,
        State.addStop_of_stepped (s := s.strobed.discardCleared) .discard hm h1]
      rfl
    · have hw : s.mode.working = false := hm ▸ rfl
      rw [exec_discard_of_not_working hq ha hw, State.removeFaults_discard (s := s.strobed) he]
      rfl

end Sys2Proof.Machine
end

section
/-! A whole PRINT record (R2, R10, R11, R15, R85, R86, R88, R89, R90, R102 to R105): what the parser holds after each data byte, and
the layer the record leaves. Settles O20. -/

namespace Sys2Proof.Machine

/-! ## The cells of the bytes taken -/

/-- The cells of a record after the bytes `taken`: cell i is the translation of the byte of column FCOL + i, once it is there (R85,
R103). -/
def printedCells (t : Straps) (table : List Cell) (taken : List Byte) : List (Option Cell) :=
  (List.range t.effective).map fun i =>
    if t.fcol + i ≤ taken.length then some (translate table (taken.getD (t.fcol + i - 1) 0)) else none

/-- The mark of a layer by its cells and the data-check mode (R88, R89, R90). -/
def printedMark (mode : CheckMode) (cells : List (Option Cell)) : Mark :=
  if cells.contains (some .unprintable) then (if mode = .blank then .blanked else .blocking) else .none

/-- The layer under construction after the bytes `taken`. -/
def printedBuild (t : Straps) (table : List Cell) (mode : CheckMode) (taken : List Byte) : LayerBuild :=
  { cells := printedCells t table taken, mark := printedMark mode (printedCells t table taken) }

section Cells
variable {t : Straps} {table : List Cell} {taken : List Byte} (v : Byte)

@[simp] theorem printedCells_length (t : Straps) (table : List Cell) (taken : List Byte) :
    (printedCells t table taken).length = t.effective := by simp [printedCells]

theorem printedCells_nil (h : 1 ≤ t.fcol) : printedCells t table [] = List.replicate t.effective none := by
  refine List.ext_getElem (by simp) fun i _ _ => ?_
  simp only [printedCells, List.getElem_map, List.getElem_range, List.length_nil, List.getElem_replicate]
  exact if_neg (by omega)

theorem printedBuild_nil (h : 1 ≤ t.fcol) (mode : CheckMode) : printedBuild t table mode [] = .fresh t.effective := by
  simp [printedBuild, printedMark, printedCells_nil h, LayerBuild.fresh]

/-- A byte of none of the station's columns leaves the cells (R103). -/
theorem printedCells_passed
    (h : ¬(t.fcol ≤ taken.length + 1 ∧ taken.length + 1 ≤ t.fcol + t.effective - 1)) (hf : 1 ≤ t.fcol) :
    printedCells t table (taken ++ [v]) = printedCells t table taken := by
  refine List.map_congr_left fun i hi => ?_
  have hi : i < t.effective := List.mem_range.1 hi
  by_cases hcol : t.fcol + i ≤ taken.length
  · have hlt : t.fcol + i - 1 < taken.length := by omega
    rw [if_pos hcol, if_pos (by simp; omega)]
    simp only [List.getD_eq_getElem?_getD, List.getElem?_append_left hlt]
  · rw [if_neg hcol, if_neg (by simp; omega)]

/-- A byte of one of the station's columns is translated into its cell (R85). -/
theorem printedCells_within (h1 : t.fcol ≤ taken.length + 1) (hf : 1 ≤ t.fcol) :
    printedCells t table (taken ++ [v]) =
      (printedCells t table taken).set (taken.length + 1 - t.fcol) (some (translate table v)) := by
  refine List.ext_getElem (by simp) fun i hi _ => ?_
  rw [List.getElem_set]
  simp only [printedCells, List.getElem_map, List.getElem_range, List.length_append, List.length_singleton]
  by_cases hi : taken.length + 1 - t.fcol = i
  · have hlast : t.fcol + i - 1 = taken.length := by omega
    rw [if_pos hi, if_pos (by omega), hlast]
    simp
  · rw [if_neg hi]
    by_cases hcol : t.fcol + i ≤ taken.length
    · rw [if_pos hcol, if_pos (by omega)]
      simp only [List.getD_eq_getElem?_getD, List.getElem?_append_left (show t.fcol + i - 1 < taken.length by omega)]
    · rw [if_neg hcol, if_neg (by omega)]

theorem printedCells_pending {i : Nat} (hi : i < t.effective) (h : taken.length < t.fcol + i) :
    (printedCells t table taken)[i]? = some none := by
  simp [printedCells, hi, Nat.not_le.2 h]

end Cells

/-- A cell set where none was adds to what the cells hold. -/
theorem contains_set_of_none {l : List (Option Cell)} {i : Nat} (h : l[i]? = some none) (x u : Cell) :
    (l.set i (some x)).contains (some u) = (l.contains (some u) || decide (x = u)) := by
  obtain ⟨hi, hnone⟩ := List.getElem?_eq_some_iff.1 h
  rw [Bool.eq_iff_iff]
  simp only [List.contains_iff_mem, Bool.or_eq_true, decide_eq_true_eq]
  rw [List.mem_iff_getElem?, List.mem_iff_getElem?]
  constructor
  · rintro ⟨k, hk⟩
    rw [List.getElem?_set] at hk
    by_cases hik : i = k
    · simp [hik ▸ hi, hik] at hk
      exact .inr hk
    · rw [if_neg hik] at hk
      exact .inl ⟨k, hk⟩
  · rintro (⟨k, hk⟩ | rfl)
    · have hik : i ≠ k := by
        rintro rfl
        exact absurd (h.symm.trans hk) nofun
      exact ⟨k, by rw [List.getElem?_set, if_neg hik, hk]⟩
    · exact ⟨i, by simp [hi]⟩

/-- The layer under construction takes a byte of one of the station's columns (R85, R88). -/
theorem printedBuild_within {t : Straps} {table : List Cell} {taken : List Byte} (mode : CheckMode) (v : Byte)
    (h1 : t.fcol ≤ taken.length + 1) (h2 : taken.length + 1 ≤ t.fcol + t.effective - 1) (hf : 1 ≤ t.fcol) :
    printedBuild t table mode (taken ++ [v]) =
      (printedBuild t table mode taken).place mode (taken.length + 1 - t.fcol) (translate table v) := by
  have hpending := printedCells_pending (t := t) (table := table) (taken := taken)
    (show taken.length + 1 - t.fcol < t.effective by omega) (by omega)
  rw [LayerBuild.place, LayerBuild.markAfter_eq, printedBuild, printedCells_within v h1 hf, printedMark,
    contains_set_of_none hpending]
  congr 1
  simp only [printedBuild, printedMark]
  by_cases hc : some Cell.unprintable ∈ printedCells t table taken
  · cases mode <;> simp [hc]
  · simp [hc]

/-! ## The body, byte by byte -/

/-- The station in the body of a PRINT record, with the bytes `taken` and `m` to come: the layer under construction, the column
index and LONG RECORD as they stand (R102 to R105). -/
def State.inPrint (s : State) (o : RecordOrder) (taken : List Byte) (m : Nat) : State :=
  { s with
    parser :=
      { state := .body
        order := some o
        remaining := some m
        column := taken.length + 1
        layer := some (printedBuild s.straps s.codeTable s.parser.checkMode taken)
        longNote := decide (192 < taken.length)
        checkMode := s.parser.checkMode }
    warnings := if 192 < taken.length then addOnce .longRecord s.warnings else s.warnings }

section Body
variable {s : State} {o : RecordOrder}

theorem State.printByte_inPrint (hf1 : 1 ≤ s.straps.fcol) (hf2 : s.straps.fcol ≤ 192) (taken : List Byte) (m : Nat) (v : Byte) :
    (s.inPrint o taken m).printByte v = s.inPrint o (taken ++ [v]) m := by
  by_cases hcol : s.straps.fcol ≤ taken.length + 1 ∧ taken.length + 1 ≤ s.straps.fcol + s.straps.effective - 1
  · have hlast := s.straps.lastColumn_le hf2
    have hshort : ¬192 < taken.length := by omega
    have hshort' : ¬192 < taken.length + 1 := by omega
    rw [State.printByte_within (s := s.inPrint o taken m) v rfl hcol.1 hcol.2]
    simp only [State.inPrint, printedBuild_within _ v hcol.1 hcol.2 hf1, List.length_append, List.length_singleton, hshort, hshort']
  · have hbuild : printedBuild s.straps s.codeTable s.parser.checkMode (taken ++ [v]) =
        printedBuild s.straps s.codeTable s.parser.checkMode taken := by
      rw [printedBuild, printedCells_passed v hcol hf1, printedBuild]
    by_cases hk : taken.length + 1 ≤ 192
    · have hshort : ¬192 < taken.length := by omega
      have hshort' : ¬192 < taken.length + 1 := by omega
      rw [State.printByte_passed (s := s.inPrint o taken m) v hcol hk]
      simp only [State.inPrint, hbuild, List.length_append, List.length_singleton, hshort, hshort']
    · have hlong : 192 < taken.length + 1 := by omega
      rw [State.printByte_beyond (s := s.inPrint o taken m) v hf2 hlong]
      by_cases hlong' : 192 < taken.length <;> simp [State.inPrint, hbuild, hlong, hlong']

theorem State.withRemaining_inPrint (ho : isPrint o = true) (taken : List Byte) (m n : Nat) :
    (s.inPrint o taken m).withRemaining o n =
      if n = 0 then (s.inPrint o taken 0).finishPrint o false else s.inPrint o taken n := by
  unfold State.withRemaining
  dsimp only
  split
  next h =>
    subst h
    exact State.finishRecord_print ho
  next => rfl

/-- Each data byte takes its column and counts down; the last one ends the record (R102). -/
theorem State.bodyByte_inPrint (ho : isPrint o = true) (hf1 : 1 ≤ s.straps.fcol) (hf2 : s.straps.fcol ≤ 192) (taken : List Byte)
    (n : Nat) (v : Byte) :
    (s.inPrint o taken (n + 1)).bodyByte o v =
      if n = 0 then (s.inPrint o (taken ++ [v]) 0).finishPrint o false else s.inPrint o (taken ++ [v]) n := by
  have hprint : (s.inPrint o taken (n + 1)).bodyByte o v = ((s.inPrint o taken (n + 1)).printByte v).withRemaining o n := by
    cases o with
    | printSpace | printSkip => rfl
    | _ => cases ho
  rw [hprint, State.printByte_inPrint hf1 hf2, State.withRemaining_inPrint ho]

/-- The count byte ends the record, or its data bytes are to come (R102). -/
theorem State.bodyByte_printBegun (ho : isPrint o = true) (hf1 : 1 ≤ s.straps.fcol) (v : Byte) :
    State.bodyByte o v { s with parser := .printBegun o s.straps.effective s.parser.checkMode } =
      if v.toNat = 0 then (s.inPrint o [] 0).finishPrint o false else s.inPrint o [] v.toNat := by
  rw [State.bodyByte_printCount ho rfl, ← State.withRemaining_inPrint ho [] 0]
  simp only [State.inPrint, printedBuild_nil hf1]
  rfl

end Body

/-! ## The run of a record -/

section Run
variable {s : State} {o : RecordOrder}

/-- The data bytes are taken in order and the last one ends the record: induction on those after the first (R102). -/
theorem core_run_printBody (h : s.takesOrders = true) (hp : s.pending = []) (ho : isPrint o = true)
    (hf1 : 1 ≤ s.straps.fcol) (hf2 : s.straps.fcol ≤ 192) (v : Byte) (vs taken : List Byte) :
    Host.Core.run core (vs.length + 1)
        { s.strobed.inPrint o taken (vs.length + 1) with pending := (v :: vs).map .dataByte } =
      .next ((s.strobed.inPrint o (taken ++ v :: vs) 0).finishPrint o false) := by
  have hstep (n k : Nat) (taken : List Byte) (v : Byte) (l : List Instr) :
      Host.Core.run core (k + 1) { s.strobed.inPrint o taken (n + 1) with pending := .dataByte v :: l } =
        Host.Core.run core k (({ s.strobed with pending := l } : State).inPrint o taken (n + 1) |>.bodyByte o v) :=
    core_run_dataByte_strobed (s := { s with warnings := (s.inPrint o taken n).warnings })
      (p := (s.inPrint o taken (n + 1)).parser) (o := o) h rfl rfl v l k
  have hbyte (n : Nat) (taken : List Byte) (v : Byte) (l : List Instr) :=
    State.bodyByte_inPrint (s := { s.strobed with pending := l }) ho hf1 hf2 taken n v
  induction vs generalizing v taken with
  | nil =>
    have hs : ({ s.strobed with pending := [] } : State) = s.strobed := by rw [← hp]; rfl
    refine (hstep 0 0 taken v []).trans ((core_run_zero _).trans (congrArg Host.Outcome.next ?_))
    rw [hbyte, if_pos rfl, hs]
  | cons w vs ih =>
    have hmore := (hbyte (vs.length + 1) taken v ((w :: vs).map .dataByte)).trans (if_neg (Nat.succ_ne_zero _))
    refine (hstep (vs.length + 1) (vs.length + 1) taken v _).trans ?_
    refine (congrArg (Host.Core.run core (vs.length + 1)) hmore).trans ((ih w (taken ++ [v])).trans ?_)
    rw [List.append_assoc]
    rfl

/-- The count byte and the data bytes of a record, from the entry to its body (R102). -/
theorem core_run_printRecord (h : s.takesOrders = true) (hp : s.pending = []) (ho : isPrint o = true)
    (hf1 : 1 ≤ s.straps.fcol) (hf2 : s.straps.fcol ≤ 192) (bytes : List Byte) (hb : bytes.length ≤ 255) :
    Host.Core.run core (bytes.length + 1)
        { s.strobed with
          parser := .printBegun o s.straps.effective s.parser.checkMode
          pending := .dataByte (BitVec.ofNat 8 bytes.length) :: bytes.map .dataByte } =
      .next ((s.strobed.inPrint o bytes 0).finishPrint o false) := by
  have hcount : (BitVec.ofNat 8 bytes.length).toNat = bytes.length := by
    rw [BitVec.toNat_ofNat]
    exact Nat.mod_eq_of_lt (by omega)
  refine (core_run_dataByte_strobed (o := o) h rfl rfl _ _ _).trans ?_
  have hbyte := State.bodyByte_printBegun (s := { s.strobed with pending := bytes.map .dataByte }) ho hf1
    (BitVec.ofNat 8 bytes.length)
  rw [hcount] at hbyte
  refine (congrArg (Host.Core.run core bytes.length) hbyte).trans ?_
  cases bytes with
  | nil =>
    have hs : ({ s.strobed with pending := [] } : State) = s.strobed := by rw [← hp]; rfl
    refine (core_run_zero _).trans (congrArg Host.Outcome.next ?_)
    rw [List.map_nil, hs]
    exact if_pos rfl
  | cons v vs =>
    refine (congrArg (Host.Core.run core (vs.length + 1)) (if_neg (Nat.succ_ne_zero _))).trans ?_
    exact core_run_printBody h hp ho hf1 hf2 v vs []

end Run

/-! ## The layer the record leaves -/

/-- The layer of a whole record, by the columns of its bytes (R85, R86, R103). -/
def printedLayer (t : Straps) (table : List Cell) (bytes : List Byte) : Layer :=
  (List.range t.effective).map fun i =>
    if t.fcol + i ≤ bytes.length then translate table (bytes.getD (t.fcol + i - 1) 0) else .blank

section Layer
variable {t : Straps} {table : List Cell} {bytes : List Byte}

theorem printedBuild_complete (mode : CheckMode) : (printedBuild t table mode bytes).complete = printedLayer t table bytes := by
  rw [LayerBuild.complete, printedBuild, printedCells, List.map_map, printedLayer]
  refine List.map_congr_left fun i _ => ?_
  dsimp only [Function.comp]
  split <;> rfl

theorem printedCells_unprintable :
    (printedCells t table bytes).contains (some .unprintable) = (printedLayer t table bytes).contains .unprintable := by
  rw [Bool.eq_iff_iff]
  simp only [List.contains_iff_mem, printedCells, printedLayer, List.mem_map]
  refine exists_congr fun i => and_congr_right fun _ => ?_
  split <;> simp

/-- UNPRINTABLE cells mark the layer by the data-check mode (R88, R89, R90). -/
theorem printedBuild_blocking (mode : CheckMode) :
    ((printedBuild t table mode bytes).mark == .blocking) =
      ((printedLayer t table bytes).contains .unprintable && mode == .block) := by
  rw [printedBuild, printedMark, printedCells_unprintable]
  cases (printedLayer t table bytes).contains .unprintable <;> cases mode <;> rfl

theorem printedBuild_blanked (mode : CheckMode) :
    (printedBuild t table mode bytes).mark = .blanked ↔
      ((printedLayer t table bytes).contains .unprintable && mode == .blank) = true := by
  rw [printedBuild, printedMark, printedCells_unprintable]
  cases (printedLayer t table bytes).contains .unprintable <;> cases mode <;> simp

end Layer

/-- The end of a whole PRINT record (R2, R10, R11, R15, R88, R89, R90, R104, R105). -/
theorem State.finishPrint_inPrint {s : State} {o : RecordOrder} {q : List Composite} {c : Composite} (ho : isPrint o = true)
    (hq : s.queue = q ++ [c]) (hpre : ∀ x ∈ q, x.state ≠ .opened) (hc : c.state = .opened) (hl : c.layers.length < 4)
    (bytes : List Byte) :
    let layer := printedLayer s.straps s.codeTable bytes
    let dirty := layer.contains .unprintable
    (s.inPrint o bytes 0).finishPrint o false =
      { s with
        parser := s.idleParser
        queue := q ++ [Composite.afterPrint o
          { c with
            layers := c.layers ++ [layer]
            flags := { c.flags with blocked := c.flags.blocked || (dirty && s.parser.checkMode == .block) } }]
        warnings :=
          let ws := if 192 < bytes.length then addOnce .longRecord s.warnings else s.warnings
          if dirty && s.parser.checkMode == .blank then addOnce .dataCheckBlanked ws else ws } := by
  intro layer dirty
  have hfinish := State.finishPrint_newest (s := s.inPrint o bytes 0) false ho rfl hq hpre hc
  rw [hfinish, Composite.struck, if_pos hl, Composite.struckWarnings, if_pos hl, printedBuild_complete, printedBuild_blocking]
  simp only [printedBuild_blanked, Bool.or_false, Bool.false_eq_true, false_and, if_false]
  rfl

/-- With a composite created for its record, a station at rest takes the next order all the same (R7, R98). -/
theorem State.takesOrders_createComposite {s : State} (h : s.takesOrders = true) : s.createComposite.takesOrders = true := by
  obtain ⟨hq, ha, hm, hb, hp⟩ := s.takesOrders_iff.1 h
  obtain ⟨-, -, hr, hmo, hf, hk⟩ := s.quiet_iff.1 hq
  refine (State.takesOrders_iff _).2 ⟨(State.quiet_iff _).2 ⟨?_, ?_, ?_, ?_, hf, hk⟩, ha, hm, hb, hp⟩
  · simp [State.placeDue, hp]
  · simp [State.drainDue, hp]
  · have hany : s.createComposite.queue.any (fun c => c.state == .closed) = s.queue.any fun c => c.state == .closed :=
      List.any_append.trans (Bool.or_false _)
    unfold State.renderDue at hr ⊢
    rw [hany]
    exact hr
  · unfold State.motionDue at hmo ⊢
    rw [← hmo]
    cases hc : s.queue <;> simp [State.createComposite, State.faulted, hc]

/-- Settles O20: the order joins or creates its composite, the run of the body ends in `State.finishPrint_inPrint`. -/
theorem printRecordBuildsItsLayer : Obligations.PrintRecordBuildsItsLayer := by
  intro s i o q c n bytes hi h hp hplace hb hf1 hf2 _ w layer dirty struck
  obtain ⟨hw, hio, ho⟩ := printOrder_facts hi
  obtain ⟨hjoin, hcreate, -⟩ := printOrderTakesItsPlace
    { s with pending := .dataByte (BitVec.ofNat 8 bytes.length) :: bytes.map .dataByte } i o hi h
  rcases hplace with ⟨hq, hpre, hc, hl, rfl⟩ | ⟨rfl, hopen, hl, rfl, rfl⟩
  · refine (core_run_command _ (hjoin (State.hasOpen_of_newest hq hc))).trans ?_
    refine (core_run_printRecord h hp ho hf1 hf2 bytes hb).trans ?_
    exact congrArg Host.Outcome.next (State.finishPrint_inPrint (s := s.strobed) ho hq hpre hc hl bytes)
  · refine (core_run_command _ (hcreate hopen hl)).trans ?_
    refine (core_run_printRecord (State.takesOrders_createComposite h) hp ho hf1 hf2 bytes hb).trans ?_
    exact congrArg Host.Outcome.next (State.finishPrint_inPrint (s := s.createComposite.strobed) ho rfl
      ((State.hasOpen_eq_false_iff s).1 hopen) rfl (Nat.zero_lt_succ 3) bytes)

end Sys2Proof.Machine
end
